-- ==== Sys2Proof/Word.lean ====
section
/-! DEFINITION. The words of the two serial lines (R165, R33: 8 data bits; R180: a 16-bit CRC). -/

namespace Sys2Proof

/-- One character of a serial line (R33, R165: 8 data bits). -/
abbrev Byte := BitVec 8

/-- The CRC register of R180. -/
abbrev Crc := BitVec 16

end Sys2Proof
end

