-- ==== Sys2Proof/Syntax.lean ====
section
/-! DEFINITION. The commands of the part: one constructor per row of spec/opcode_table.json, in the table's order.
The rows carry no bits. Operands are those an event needs: which line, record or feeder it happens to, the character received, and
what was measured. Requests carry no operand: they serve the oldest frame of the request intake (R169), log entry 16. -/

namespace Sys2Proof

/-- The four field lines (R33), in the order A, B, C, D of R59 and R176. -/
inductive FieldLine where
  | a | b | c | d
  deriving DecidableEq, Repr

/-- The 13 fault conditions (R90), in the order of their codes 1 to 13. -/
inductive Condition where
  | mainsLost | doorOpen | circuitDark | partialOut | overcurrent | dayBurning
  | loopOpen | loopShort | loopDrift | stuckPresent | loopChatter | signDark | pixelFault
  deriving DecidableEq, Repr

/-- A command: an event that reaches the part, or a step the part makes (spec/opcode_table.json). -/
inductive Instr where
  /-- R184: power is applied. -/
  | powerOn
  /-- R184: an edge on the RESET pin. -/
  | resetPin
  /-- R19: one second is complete. The operand says whether the qualifier takes this tick before the gate, the release
  timers and the storm windows do (`true`) or after them; R19 leaves the order of the blocks open. -/
  | secondsTick (qualifierFirst : Bool)
  /-- R96: the record's tick brings its timer to its confirm term. -/
  | confirmTermReached (asset : Nat) (cond : Condition)
  /-- R99: the record's tick brings its window to 0. -/
  | countWindowExpiry (asset : Nat) (cond : Condition)
  /-- R102: the record's tick brings its timer to its clear time. -/
  | clearTimeReached (asset : Nat) (cond : Condition)
  /-- R109: the record's tick brings its escalation timer to its term. -/
  | escalation (asset : Nat) (cond : Condition)
  /-- R132: the tick brings the release timer of the feeder's slot to 0. -/
  | releaseTimerExpiry (feeder : Nat)
  /-- R136: the storm windows rotate at this tick. -/
  | stormWindowRotation
  /-- R28: the tick brings the settling count to 0. -/
  | settlingEnd
  /-- R50: the tick leaves a RESTING line's interval count at 0. -/
  | sweepIntervalExpiry (line : FieldLine)
  /-- R183: the tick brings the save count to 0. -/
  | saveTimeout
  /-- R183: the write of the captured settings finishes. -/
  | saveCompletion
  /-- R21: the good-cycle count has reached 2048. -/
  | qualificationComplete
  /-- R21: 2 s have passed in QUALIFYING without 2048 good cycles. -/
  | qualificationTimeout
  /-- R22: no crystal edge for 1 ms in ON-CRYSTAL. -/
  | crystalEdgeLoss
  /-- R162: the on-phase or the period of the flash pattern ends. -/
  | flashPhase
  /-- R36, R38: `bits` further bit times have passed on the line: the guard elapses, then the poll goes out, as far as they reach. -/
  | pollSend (line : FieldLine) (bits : Nat)
  /-- R37: the reply timeout expires. -/
  | replyTimeout (line : FieldLine)
  /-- R37: more than 4 character times pass within a reply. -/
  | incompleteReplyGap (line : FieldLine)
  /-- R39: the reply is complete and is judged. -/
  | replyComplete (line : FieldLine)
  /-- R60: a FREE slot is granted to the head of the wait list. -/
  | slotGrant
  /-- R62: the IDLE Decoder takes the head of the decode order. -/
  | decoderTakeBlock
  /-- R63: the Decoder applies one entry. -/
  | applyEntry
  /-- R167: a complete console frame is checked. -/
  | consoleFrameComplete
  /-- R166: more than 30 ms without a character inside a console frame. -/
  | consoleGapExpiry
  /-- R169: the oldest frame's kind is no request kind. -/
  | unknownKindRequest
  /-- R171: the idle transmitter takes the pending notice. -/
  | headNoticeSend
  /-- R171: the last stop bit of the frame being sent has gone. -/
  | transmitComplete
  /-- R172: the console rate changes after the reply. -/
  | consoleRateSwitch
  /-- R185: the reset that RESTART asked for. -/
  | restartReset
  /-- R186: the reset that FACTORY-DEFAULTS asked for. -/
  | factoryDefaultsReset
  | defineStation
  | removeStation
  | defineAsset
  | removeAsset
  | setProfile
  | setArea
  | readStation
  | readAsset
  | readProfile
  | setTime
  | clockRetry
  | setDaylightSource
  | setDaylight
  | setLine
  | startLine
  | stopLine
  | setSweepMode
  | interrogate
  | relearn
  | readRecord
  | listRecords
  | readIncident
  | listIncidents
  | breakOut
  | peek
  | listQueue
  | acknowledge
  | setAlert
  | setNotices
  | readStatus
  | setConsoleRate
  | saveSettings
  | restart
  | factoryDefaults
  /-- R166: a character arrives on RXD. -/
  | consoleCharacterReceived (byte : Byte)
  /-- R37, R38: a character arrives on a field line's receive data. -/
  | fieldCharacterReceived (line : FieldLine) (byte : Byte)
  /-- R21: one crystal cycle has ended and been measured against the internal oscillator; its period in millionths of the nominal
  period (log entry 7). -/
  | crystalCycleMeasured (period : Nat)
  deriving DecidableEq, Repr

end Sys2Proof
end

