-- ==== Sys2Proof/Config.lean ====
section
/-! DEFINITION. The fixed sizes and limits of the part, and the one free constant that needs no type of the state (the
other, the layout of the settings image, stands beside the type of the image's contents in Machine/State.lean). -/

namespace Sys2Proof.Config

/-- The last outstation number (R1). -/
def maxStation : Nat := 120

/-- The last address on a field line (R1). -/
def maxAddress : Nat := 30

/-- The last asset number (R3). -/
def maxAsset : Nat := 4095

/-- The last point number of an outstation (R2). -/
def maxPoint : Nat := 63

/-- The last area and the last feeder number (R3). -/
def maxArea : Nat := 64

/-- The fault table holds at most this many records (R88). -/
def maxRecords : Nat := 1024

/-- The dispatch queue holds at most this many items (R148). -/
def maxQueue : Nat := 192

/-- The intake's slots (R58). -/
def intakeSlots : Nat := 8

/-- The request intake's frames (R168). -/
def requestFrames : Nat := 2

/-- The entries of an interrogation list (R35). -/
def maxInterrogation : Nat := 4

/-- The blocks a visit may accept (R47). -/
def maxVisitBlocks : Nat := 4

/-- The run-second holds at this count (R19). -/
def maxRunSecond : Nat := 4294967295

/-- Counts modulo 2^32: the wall offset and the wall time (R24). -/
def wallModulus : Nat := 4294967296

/-- Good crystal cycles that qualify the crystal (R21). -/
def qualifyingCycles : Nat := 2048

/-- The nominal crystal period, 1/32768 s, in the model's unit of time, one millionth of it (DESIGN CHOICE, log entry 7). -/
def nominalPeriod : Nat := 1000000

/-- The longest turnaround guard, in bit times (R33). -/
def maxGuard : Nat := 31

/-- The largest body length of a console frame (R166, R176). -/
def maxBody : Nat := 1000

/-- The largest length byte of a field reply that reception follows (R37). -/
def maxReplyLength : Nat := 240

/-- Free constant (log entry 4): when one tick both brings an unseen, ungrouped RESTORING record to its clear time and its
escalation timer to its term, whether the record escalates before it enters RESTORED. The spec orders neither before the
other (R102, R109), and nothing here gives it a value. -/
opaque escalatesBeforeClearing : Bool

end Sys2Proof.Config
end

