-- ==== Sys2Proof/Machine/Tables.lean ====
section
/-! DEFINITION. Keyed tables ("A table is keyed ... it holds at most one entry per key", 00_scope): lists of (key, entry) with the keys
strictly rising. A table in which every key has an entry leaves out the entries that equal a default. -/

namespace Sys2Proof.Machine

/-- A table keyed by number, in its canonical form (`Table.wf`). -/
abbrev Table (α : Type) := List (Nat × α)

/-- The entry at a key. -/
def Table.find {α : Type} : Table α → Nat → Option α
  | [], _ => none
  | (k, v) :: t, n => if k = n then some v else Table.find t n

/-- Set the entry at a key, new or not, keeping the keys in order. -/
def Table.insert {α : Type} : Table α → Nat → α → Table α
  | [], n, v => [(n, v)]
  | (k, w) :: t, n, v =>
    if n < k then (n, v) :: (k, w) :: t
    else if n = k then (n, v) :: t
    else (k, w) :: Table.insert t n v

/-- Take the entry at a key away. -/
def Table.erase {α : Type} (t : Table α) (n : Nat) : Table α :=
  t.filter (fun e => e.1 != n)

/-- Change the entry at a key, if there is one. -/
def Table.modify {α : Type} (t : Table α) (n : Nat) (f : α → α) : Table α :=
  t.map (fun e => if e.1 = n then (e.1, f e.2) else e)

/-- The keys, ascending. -/
def Table.keys {α : Type} (t : Table α) : List Nat :=
  t.map Prod.fst

/-- The entry at a key of a table in which an unlisted key holds `d`. -/
def Table.lookup {α : Type} (d : α) (t : Table α) (n : Nat) : α :=
  (Table.find t n).getD d

/-- Set the entry at a key of a table in which an unlisted key holds `d`. -/
def Table.store {α : Type} [DecidableEq α] (d : α) (t : Table α) (n : Nat) (v : α) : Table α :=
  if v = d then Table.erase t n else Table.insert t n v

/-- The keys are strictly rising. -/
def Table.wf {α : Type} : Table α → Bool
  | [] => true
  | [_] => true
  | (k, _) :: (k', v') :: t => decide (k < k') && Table.wf ((k', v') :: t)

/-- No entry equals what an unlisted key holds. -/
def Table.noDefaults {α : Type} [DecidableEq α] (d : α) (t : Table α) : Bool :=
  t.all (fun e => e.2 != d)

end Sys2Proof.Machine
end

