-- ==== Sys2Proof/Machine/State.lean ====
section
/-! DEFINITION. The state of the part, block by block, as plain data, and the state after power-on with no valid settings
image (R184). Every field cites the rule that names it; the model's own fields are `tick` and `pending`. -/

namespace Sys2Proof.Machine

/-- A run-second or a count of seconds. -/
abbrev Seconds := Nat

/-! ## Asset Directory -/

/-- R3: the asset kinds. -/
inductive AssetKind where
  | cabinet | lampCircuit | loop | sign
  deriving DecidableEq, Repr

/-- R4: the roles. -/
inductive Role where
  | main | aux | door | supply | detect
  deriving DecidableEq, Repr

/-- R1: outstation states. -/
inductive StationState where
  | unpolled | online | silent
  deriving DecidableEq, Repr

/-- R39: failure causes. -/
inductive FailureCause where
  | timeout | check | address | form
  deriving DecidableEq, Repr

/-- R78: bands. -/
inductive Band where
  | failLow | low | normal | high | failHigh
  deriving DecidableEq, Repr

/-- R1: the settings of a defined outstation. -/
structure StationSettings where
  line : FieldLine
  address : Nat
  priority : Nat
  enabled : Bool
  deriving DecidableEq, Repr

/-- R1, R2: a defined outstation: settings, point map, dynamic fields. The dynamic defaults are those of a slot that becomes
defined (R1). -/
structure Station where
  settings : StationSettings
  /-- R2: the filled entries of the point map, by point. -/
  pointMap : Table (Nat × Role) := []
  state : StationState := .unpolled
  /-- R46: consecutive failed visits, 0 to 15. -/
  failures : Nat := 0
  /-- R42: last accepted toggle. -/
  toggle : Bool := false
  lastCause : Option FailureCause := none
  lastContact : Option Seconds := none
  /-- R66: unmapped-entry mark. -/
  unmapped : Bool := false
  deriving DecidableEq, Repr

/-- R4: the point of each role, absent for a role the asset does not have. -/
structure RolePoints where
  main : Option Nat
  aux : Option Nat
  door : Option Nat
  supply : Option Nat
  detect : Option Nat
  deriving DecidableEq, Repr

/-- R3: the settings of a defined asset. -/
structure AssetSettings where
  kind : AssetKind
  station : Nat
  points : RolePoints
  profile : Nat
  priority : Nat
  area : Nat
  feeder : Nat
  lampCount : Nat
  doubling : Bool
  label : List Byte
  deriving DecidableEq, Repr

/-- R3, R6: a defined asset: settings and classifier fields, these at their values at definition by default. -/
structure Asset where
  settings : AssetSettings
  /-- 0 means unlearned. -/
  reference : Nat := 0
  lastMain : Option Nat := none
  lastBand : Option Band := none
  lastAux : Option Nat := none
  lampsOut : Option Nat := none
  deriving DecidableEq, Repr

/-- R7: the 18 fields of a profile. -/
structure Profile where
  confirmFail : Nat
  confirmBand : Nat
  clearTime : Nat
  chatterCount : Nat
  chatterWindow : Nat
  edgeAllowance : Nat
  escalateAfter : Nat
  /-- take_up: true is IMMEDIATE. -/
  immediate : Bool
  autoClose : Bool
  failLow : Int
  low : Int
  high : Int
  failHigh : Int
  trackShift : Nat
  learnFloor : Nat
  dayLimit : Nat
  pixelLimit : Nat
  releaseWait : Nat
  deriving DecidableEq, Repr

/-- R8: factory profile 0, lamps, which profiles 4 to 15 hold too. -/
def Profile.lamps : Profile :=
  { confirmFail := 120, confirmBand := 1800, clearTime := 300, chatterCount := 20, chatterWindow := 600, edgeAllowance := 2,
    escalateAfter := 0, immediate := false, autoClose := false, failLow := -7000, low := -300, high := 1500, failHigh := 3000,
    trackShift := 6, learnFloor := 20, dayLimit := 30, pixelLimit := 64, releaseWait := 600 }

/-- R8: factory profile 1, loops. -/
def Profile.loops : Profile :=
  { confirmFail := 30, confirmBand := 900, clearTime := 60, chatterCount := 30, chatterWindow := 120, edgeAllowance := 2,
    escalateAfter := 0, immediate := false, autoClose := false, failLow := -5000, low := -150, high := 20, failHigh := 2000,
    trackShift := 4, learnFloor := 1000, dayLimit := 30, pixelLimit := 64, releaseWait := 600 }

/-- R8: factory profile 2, signs. -/
def Profile.signs : Profile :=
  { confirmFail := 60, confirmBand := 600, clearTime := 120, chatterCount := 20, chatterWindow := 600, edgeAllowance := 2,
    escalateAfter := 0, immediate := false, autoClose := false, failLow := -8000, low := -2000, high := 2000, failHigh := 5000,
    trackShift := 5, learnFloor := 10, dayLimit := 30, pixelLimit := 32, releaseWait := 600 }

/-- R8: factory profile 3, cabinets. -/
def Profile.cabinets : Profile :=
  { confirmFail := 20, confirmBand := 300, clearTime := 60, chatterCount := 20, chatterWindow := 600, edgeAllowance := 2,
    escalateAfter := 0, immediate := false, autoClose := false, failLow := -7000, low := -300, high := 1500, failHigh := 3000,
    trackShift := 6, learnFloor := 20, dayLimit := 30, pixelLimit := 64, releaseWait := 600 }

/-- R8: the 16 factory profiles. -/
def factoryProfiles : List Profile :=
  [.lamps, .loops, .signs, .cabinets, .lamps, .lamps, .lamps, .lamps, .lamps, .lamps, .lamps, .lamps, .lamps, .lamps, .lamps, .lamps]

/-- R9: the settings of an area, at their factory values by default. -/
structure AreaSettings where
  stormThreshold : Nat := 0
  calmLevel : Nat := 0
  stormClass : Nat := 2
  deriving DecidableEq, Repr

/-- The Asset Directory (R1, R3, R7, R9). An area that is not listed holds the factory settings. -/
structure Directory where
  stations : Table Station := []
  assets : Table Asset := []
  profiles : List Profile := factoryProfiles
  areas : Table AreaSettings := []
  deriving DecidableEq, Repr

/-! ## Timebase and Daylight Gate -/

/-- R21 to R23: the clock monitor. -/
inductive MonitorState where
  | qualifying | onCrystal | onInternal
  deriving DecidableEq, Repr

/-- R25: time quality. -/
inductive Quality where
  | unset | good | degraded
  deriving DecidableEq, Repr

/-- The Timebase, at its power-on values by default (R26). -/
structure Timebase where
  runSecond : Seconds := 0
  /-- R20: how much of the second in progress has elapsed on the selected oscillator, in millionths of the nominal crystal period; at a full
  second the seconds tick is due (log entry 7). -/
  phase : Nat := 0
  wallOffset : Nat := 0
  timeSet : Bool := false
  monitor : MonitorState := .qualifying
  goodCycles : Nat := 0
  /-- R21: time elapsed in QUALIFYING, in millionths of the nominal crystal period (log entry 7). -/
  elapsed : Nat := 0
  deriving DecidableEq, Repr

/-- R27: gate values. -/
inductive GateValue where
  | day | night | unknown
  deriving DecidableEq, Repr

/-- R27: the gate's source. -/
inductive GateSource where
  | console
  | point (station point : Nat)
  deriving DecidableEq, Repr

/-- R27: the Daylight Gate, at its power-on values with no valid image by default (R32). -/
structure Gate where
  value : GateValue := .unknown
  settling : Bool := false
  count : Seconds := 0
  source : GateSource := .console
  settleTime : Seconds := 600
  deriving DecidableEq, Repr

/-! ## Field lines -/

/-- R33: bit rates. -/
inductive BitRate where
  | b1200 | b2400 | b4800 | b9600 | b19200 | b38400
  deriving DecidableEq, Repr

/-- R51: sweep modes. -/
inductive SweepMode where
  | continuous | single
  deriving DecidableEq, Repr

/-- R33: line settings, factory values by default. -/
structure LineSettings where
  bitRate : BitRate := .b9600
  replyTimeout : Nat := 200
  guard : Nat := 4
  retries : Nat := 2
  silence : Nat := 3
  interval : Seconds := 10
  mode : SweepMode := .continuous
  autoStart : Bool := false
  deriving DecidableEq, Repr

/-- R35: line states. -/
inductive LineState where
  | stopped | resting | awaitSlot | polling
  deriving DecidableEq, Repr

/-- R35: the origin of a visit. -/
inductive VisitOrigin where
  | sweep | list
  deriving DecidableEq, Repr

/-- R36: the kind of poll of the exchange in progress. -/
inductive PollKind where
  | poll | snapshot
  deriving DecidableEq, Repr

/-- R35: the visit in flight. -/
structure Visit where
  station : Nat
  origin : VisitOrigin
  kind : PollKind
  attempt : Nat := 1
  accepted : Nat := 0
  snapshots : Nat := 0
  /-- R44: the visit's outcome is decided, so the exchange in progress is a continuation. -/
  decided : Bool := false
  deriving DecidableEq, Repr

/-- R36 to R38: how far an attempt has gone: waiting out the guard; sending the poll, with its characters and the bit times of it that have
gone out; or polled, with the characters of the reply received so far. -/
inductive Exchange where
  | guardWait
  | sending (poll : List Byte) (bits : Nat)
  | reply (chars : List Byte)
  deriving DecidableEq, Repr

/-- One field line controller (R33, R35), at its reset values by default (R57). -/
structure LineController where
  settings : LineSettings := {}
  state : LineState := .stopped
  sweepPos : Nat := 0
  between : Bool := false
  interval : Seconds := 0
  visitMark : Bool := false
  list : List Nat := []
  visit : Option Visit := none
  exchange : Exchange := .guardWait
  /-- R38: bit times of quiet since the end of the last attempt and the last character received. -/
  quiet : Nat := 0
  /-- R38: the quiet began before the last end of a second, so that the next one completes a whole second of it (log entry 7). -/
  quietSecond : Bool := false
  /-- R36: the driver enable, asserted while a poll is being sent. -/
  driverEnable : Bool := false
  /-- The last poll frame sent whole on the line (an output record, log entry 8). -/
  driven : List Byte := []
  deriving DecidableEq, Repr

/-- The four controllers. -/
structure Lines where
  a : LineController := {}
  b : LineController := {}
  c : LineController := {}
  d : LineController := {}
  deriving DecidableEq, Repr

/-! ## Report Intake and Decoder -/

/-- R179: the data of a report entry. -/
inductive EntryData where
  | digital (state edges : Nat)
  | analogue (value : Nat)
  deriving DecidableEq, Repr

/-- R179: a report entry. -/
structure Entry where
  point : Nat
  data : EntryData
  deriving DecidableEq, Repr

/-- R43: a report block. `snapshot` tells a SNAPSHOT block from a REPORT block. -/
structure Block where
  line : FieldLine
  station : Nat
  snapshot : Bool
  entries : List Entry
  arrival : Seconds
  deriving DecidableEq, Repr

/-- R58: an intake slot. -/
inductive IntakeSlot where
  | free
  | reserved (line : FieldLine)
  | filled (block : Block)
  deriving DecidableEq, Repr

/-- R62: the Decoder; `next` counts the entries already applied. -/
inductive Decoder where
  | idle
  | decoding (slot next : Nat)
  deriving DecidableEq, Repr

/-- R58, R59, R62: intake and Decoder, at their reset values by default (R70). -/
structure Intake where
  slots : List IntakeSlot := [.free, .free, .free, .free, .free, .free, .free, .free]
  /-- FILLED slots not yet taken, oldest fill first. -/
  order : List Nat := []
  /-- Lines waiting for a slot, in request order. -/
  waiting : List FieldLine := []
  decoder : Decoder := .idle
  deriving DecidableEq, Repr

/-! ## Fault table -/

/-- R89: record states. -/
inductive RecordState where
  | qualifying | active | restoring | restored
  deriving DecidableEq, Repr

/-- R145: the reasons. -/
inductive Reason where
  | new | restored
  deriving DecidableEq, Repr

/-- R111: the confirm term of a PERSIST or GATED record, or the two terms of a COUNT record. -/
inductive ConfirmTerms where
  | time (term : Seconds)
  | count (chatterCount : Nat) (chatterWindow : Seconds)
  deriving DecidableEq, Repr

/-- R111: the terms a record copies. -/
structure Terms where
  confirm : ConfirmTerms
  clearTime : Seconds
  escalateAfter : Seconds
  autoClose : Bool
  deriving DecidableEq, Repr

/-- R91: a trail entry. -/
structure TrailEntry where
  entered : RecordState
  time : Seconds
  deriving DecidableEq, Repr

/-- R89: a fault record. `waiting` is its waiting mark with the item's reason (R148). -/
structure Record where
  state : RecordState
  observed : Bool
  seen : Bool
  escalated : Bool
  recurrence : Nat
  incident : Option Nat
  created : Seconds
  confirmed : Option Seconds
  restored : Option Seconds
  timer : Seconds
  evidence : Nat
  windowLeft : Option Seconds
  escTimer : Seconds
  terms : Terms
  lampsOut : Option Nat
  quality : Option Quality
  trail : List TrailEntry
  waiting : Option Reason
  deriving DecidableEq, Repr

/-! ## Incident table -/

/-- R119: slot states. -/
inductive SlotState where
  | free | opened | releasing | restored
  deriving DecidableEq, Repr

/-- R119: slot types. -/
inductive SlotType where
  | outstation | feeder | area
  deriving DecidableEq, Repr

/-- R119: an incident slot, with its "At FREE" values by default. `root` is the key of the root record; `waiting` the waiting mark
(R148). -/
structure Slot where
  state : SlotState := .free
  seen : Bool := false
  members : Nat := 0
  openedAt : Option Seconds := none
  restoredAt : Option Seconds := none
  absorbing : Bool := false
  release : Seconds := 0
  root : Option Nat := none
  leftBehind : Nat := 0
  waiting : Option Reason := none
  deriving DecidableEq, Repr

/-- R135: a storm window, oldest bucket first; the last is the current bucket. -/
def calmWindow : List Nat := [0, 0, 0, 0, 0, 0, 0, 0, 0, 0]

/-- R119, R135: the Incident Table. A slot that is not listed is FREE; a window that is not listed is all 0 (R144). -/
structure Incidents where
  slots : Table Slot := []
  storms : Table (List Nat) := []
  deriving DecidableEq, Repr

/-! ## Dispatch queue and ALERT -/

/-- R146: what an item stands for: a record, by key, or an incident slot. -/
inductive Thing where
  | incident (slot : Nat)
  | record (key : Nat)
  deriving DecidableEq, Repr

/-- R147, R148: a queued item with the rank class and order time it is ranked by. -/
structure Item where
  thing : Thing
  reason : Reason
  rankClass : Nat
  orderTime : Seconds
  deriving DecidableEq, Repr

/-- R146: the part of a summary that depends on the type. -/
inductive SummaryDetail where
  | record (kind : AssetKind) (recurrence : Nat) (escalated : Bool)
  | incident (type : SlotType) (members : Nat)
  deriving DecidableEq, Repr

/-- R146: an item summary. -/
structure Summary where
  item : Item
  detail : SummaryDetail
  deriving DecidableEq, Repr

/-- R161: ALERT states. -/
inductive AlertState where
  | steady | flash | idle
  deriving DecidableEq, Repr

/-- R163: alert settings, factory values by default. `activeHigh` is the active level. -/
structure AlertSettings where
  activeHigh : Bool := true
  period : Nat := 1000
  onTime : Nat := 500
  deriving DecidableEq, Repr

/-- R162, R163: the flash period in progress: its phase, and the settings it runs on. -/
structure FlashPeriod where
  onPhase : Bool
  settings : AlertSettings
  deriving DecidableEq, Repr

/-- The Dispatch Queue and the ALERT output (R148, R159 to R163), at their power-on values with no valid image by default (R164). -/
structure Dispatch where
  queue : List Item := []
  /-- R159: the pending HEAD notice: the head's summary, or `some none` for the empty mark. -/
  notice : Option (Option Summary) := none
  notices : Bool := false
  alertSettings : AlertSettings := {}
  alert : AlertState := .idle
  /-- R161: the level of the ALERT pin. -/
  pinHigh : Bool := false
  flash : Option FlashPeriod := none
  deriving DecidableEq, Repr

/-! ## Console link -/

/-- R165: console rates. -/
inductive ConsoleRate where
  | c9600 | c19200 | c38400 | c57600 | c115200 | c230400
  deriving DecidableEq, Repr

/-- R176: a console frame without its lead byte, length and CRC, which follow from these. -/
structure Frame where
  kind : Byte
  tag : Byte
  body : List Byte
  deriving DecidableEq, Repr

/-- R172: what follows when a reply's last stop bit has been sent. -/
inductive AfterReply where
  | nothing | rateSwitch | restart | factoryDefaults
  deriving DecidableEq, Repr

/-- R171: the transmitter. A frame is held with the characters that go out on TXD (R176). -/
inductive Transmitter where
  | idle
  | reply (frame : Frame) (chars : List Byte) (after : AfterReply)
  | notice (frame : Frame) (chars : List Byte)
  deriving DecidableEq, Repr

/-- R173: the six sticky flags. -/
structure Sticky where
  linkFault : Bool := false
  overrun : Bool := false
  clockFail : Bool := false
  tableFull : Bool := false
  saveFailed : Bool := false
  unmapped : Bool := false
  deriving DecidableEq, Repr

/-- The Console Link (R165 to R173), at its power-on values with no valid image by default (R175). -/
structure Link where
  /-- R166: none in HUNT; in IN-FRAME the characters held, lead byte first. -/
  receiver : Option (List Byte) := none
  requests : List Frame := []
  transmitter : Transmitter := .idle
  /-- R172: what the reply just sent still asks for. -/
  after : AfterReply := .nothing
  flags : Sticky := {}
  rate : ConsoleRate := .c115200
  /-- R172: the rate in force on the line. -/
  lineRate : ConsoleRate := .c115200
  deriving DecidableEq, Repr

/-! ## Settings store -/

/-- R181: the configuration that the image holds. -/
structure Configuration where
  stations : Table StationSettings := []
  /-- Settings and reference of every defined asset. -/
  assets : Table (AssetSettings × Nat) := []
  profiles : List Profile := factoryProfiles
  areas : Table AreaSettings := []
  lineA : LineSettings := {}
  lineB : LineSettings := {}
  lineC : LineSettings := {}
  lineD : LineSettings := {}
  gateSource : GateSource := .console
  settleTime : Seconds := 600
  alert : AlertSettings := {}
  notices : Bool := false
  rate : ConsoleRate := .c115200
  deriving DecidableEq, Repr

/-- R181: the stored image: contents, CRC and validity mark. -/
structure Image where
  contents : Configuration
  crc : Crc
  mark : Bool
  deriving DecidableEq, Repr

/-- R182: the save in progress. -/
structure Saving where
  count : Seconds
  captured : Configuration
  deriving DecidableEq, Repr

/-- The Settings Store: SAVING when `saving` is present, else IDLE (R182). A part that has never completed a save holds no image (R181). -/
structure Store where
  saving : Option Saving := none
  image : Option Image := none
  deriving DecidableEq, Repr

/-! ## The model's own -/

/-- What of the current tick the blocks have still to take (R19: the tick is offered to every block; log entry 3). -/
structure TickDue where
  /-- The tick that ends settling (R28). -/
  gate : Bool := false
  /-- The rotation of this tick (R136). -/
  rotation : Bool := false
  /-- Feeder numbers whose release timer this tick brings to 0 (R132). -/
  release : List Nat := []
  /-- The least record key that has still to take the tick (R95). -/
  qualifier : Option Nat := none
  /-- The qualifier takes this tick before the gate and the Incident Table do. -/
  qualifierFirst : Bool := false
  /-- RESTING lines whose interval count this tick leaves at 0 (R50). -/
  lines : List FieldLine := []
  /-- The tick that brings the save count to 0 (R183). -/
  save : Bool := false
  deriving DecidableEq, Repr

/-- The machine's state. The defaults are the state after power-on with no valid settings image (R184). -/
structure State where
  timebase : Timebase := {}
  gate : Gate := {}
  directory : Directory := {}
  lines : Lines := {}
  intake : Intake := {}
  faults : Table Record := []
  incidents : Incidents := {}
  dispatch : Dispatch := {}
  link : Link := {}
  store : Store := {}
  tick : TickDue := {}
  /-- The commands that are waiting, first in, first out. -/
  pending : List Instr := []
  deriving DecidableEq, Repr

/-- No command faults: the spec gives the part no event that stops it. -/
inductive Fault where
  deriving DecidableEq, Repr

/-- Why a command has no meaning. -/
inductive Refusal where
  /-- Raised by `exec` alone, for a command that is not modelled; safe. No arm raises it: every command has its meaning. -/
  | notModelled (mnemonic : String)
  deriving DecidableEq, Repr

/-- The machine right after power-on with no valid settings image: a part that has never completed a save holds none (R181, R184). -/
def State.reset : State := {}

end Sys2Proof.Machine

namespace Sys2Proof.Config

/-- Free constant (log entry 9): the image's contents as the bytes its CRC is computed over. "The layout of the image inside
the part is not visible on either line" (R181). -/
opaque imageBytes : Sys2Proof.Machine.Configuration → List Byte

end Sys2Proof.Config
end

