-- ==== Sys2Proof/Machine/Operands.lean ====
section
/-! DEFINITION. The wire formats (R176 to R180): the CRC, reading the fields of request bodies, encoding the fields of replies,
the console frame, the field frame and the report entry. -/

namespace Sys2Proof.Machine

/-! ## CRC (R180) -/

/-- R180: one bit, most significant first, into the register; the polynomial is x^16 + x^12 + x^5 + 1. -/
def crcBit (crc : Crc) (bit : Bool) : Crc :=
  let shifted := crc <<< 1
  if (crc.getLsbD 15) != bit then shifted ^^^ 0x1021#16 else shifted

/-- R180: one byte into the register. -/
def crcByte (crc : Crc) (b : Byte) : Crc :=
  [7, 6, 5, 4, 3, 2, 1, 0].foldl (fun c i => crcBit c (b.getLsbD i)) crc

/-- R180: the CRC of a list of bytes. -/
def crc16 (bytes : List Byte) : Crc :=
  bytes.foldl crcByte 0xFFFF#16

/-! ## The bits of a character (R165, R33) -/

/-- R165: the level of a line between characters, and the level of a stop bit. A bit is `true` at the stop level. -/
def stopLevel : Bool := true

/-- R165, R33: the 10 bits of a character, first to last: the start bit, the 8 data bits least significant first, the stop bit. -/
def characterBits (b : Byte) : List Bool := (!stopLevel) :: (List.range 8).map b.getLsbD ++ [stopLevel]

/-- R165: the bits of a frame: its characters back to back. -/
def frameBits (chars : List Byte) : List Bool := chars.flatMap characterBits

/-- R165: the data value of a character received as these bits; the stop bit is not judged. -/
def readCharacter (bits : List Bool) : Byte :=
  BitVec.ofNat 8 (((bits.drop 1).take 8).foldr (fun b n => b.toNat + 2 * n) 0)

/-- R165: the level of a transmit line at a bit time of the frame that is being sent; with no frame, and past its last bit, the stop level. -/
def transmitLevel (chars : List Byte) (bit : Nat) : Bool := (frameBits chars).getD bit stopLevel

/-! ## Numbers (R176: high byte first) -/

/-- A number in 1 byte. -/
def enc8 (n : Nat) : List Byte := [BitVec.ofNat 8 n]

/-- A number in 2 bytes. -/
def enc16 (n : Nat) : List Byte := [BitVec.ofNat 8 (n / 256), BitVec.ofNat 8 n]

/-- A number in 4 bytes. -/
def enc32 (n : Nat) : List Byte :=
  [BitVec.ofNat 8 (n / 16777216), BitVec.ofNat 8 (n / 65536), BitVec.ofNat 8 (n / 256), BitVec.ofNat 8 n]

/-- A signed number in 2 bytes, two's complement (R176: the band fields). -/
def encS16 (i : Int) : List Byte := enc16 (i % 65536).toNat

/-- off, no, absent, low, clear are 0; on, yes, present, high, set are 1. -/
def encBool (b : Bool) : List Byte := enc8 b.toNat

/-- R176: an optional field: a presence byte and the field, all zero bytes when absent. -/
def encOpt (width : Nat) {α : Type} (enc : α → List Byte) : Option α → List Byte
  | none => 0#8 :: List.replicate width 0#8
  | some v => 1#8 :: enc v

/-- The byte at an offset of a body. -/
def u8 (body : List Byte) (i : Nat) : Nat := (body.getD i 0#8).toNat

/-- The 2-byte number at an offset. -/
def u16 (body : List Byte) (i : Nat) : Nat := u8 body i * 256 + u8 body (i + 1)

/-- The 4-byte number at an offset. -/
def u32 (body : List Byte) (i : Nat) : Nat := u16 body i * 65536 + u16 body (i + 2)

/-- The signed 2-byte number at an offset. -/
def s16 (body : List Byte) (i : Nat) : Int :=
  if u16 body i < 32768 then (u16 body i : Int) else (u16 body i : Int) - 65536

/-! ## Enumerations (R176: the position in the table, from 0) -/

/-- The value at a position of an enumeration, none beyond it. -/
def decEnum {α : Type} (values : List α) (n : Nat) : Option α := values[n]?

/-- The position of a value in its enumeration. -/
def encEnum {α : Type} [DecidableEq α] (values : List α) (v : α) : List Byte :=
  enc8 (values.findIdx (fun w => decide (w = v)))

def fieldLines : List FieldLine := [.a, .b, .c, .d]
def bitRates : List BitRate := [.b1200, .b2400, .b4800, .b9600, .b19200, .b38400]
def consoleRates : List ConsoleRate := [.c9600, .c19200, .c38400, .c57600, .c115200, .c230400]
def booleans : List Bool := [false, true]
def assetKinds : List AssetKind := [.cabinet, .lampCircuit, .loop, .sign]
def roles : List Role := [.main, .aux, .door, .supply, .detect]
def stationStates : List StationState := [.unpolled, .online, .silent]
def failureCauses : List FailureCause := [.timeout, .check, .address, .form]
def bands : List Band := [.failLow, .low, .normal, .high, .failHigh]
def recordStates : List RecordState := [.qualifying, .active, .restoring, .restored]
def slotTypes : List SlotType := [.outstation, .feeder, .area]
def slotStates : List SlotState := [.free, .opened, .releasing, .restored]
def reasons : List Reason := [.new, .restored]
def qualities : List Quality := [.unset, .good, .degraded]
def monitorStates : List MonitorState := [.qualifying, .onCrystal, .onInternal]
def gateValues : List GateValue := [.day, .night, .unknown]
def lineStates : List LineState := [.stopped, .resting, .awaitSlot, .polling]
def sweepModes : List SweepMode := [.continuous, .single]

/-- R90: the conditions in the order of their codes, from 1. -/
def conditions : List Condition :=
  [.mainsLost, .doorOpen, .circuitDark, .partialOut, .overcurrent, .dayBurning, .loopOpen, .loopShort, .loopDrift,
    .stuckPresent, .loopChatter, .signDark, .pixelFault]

/-- R90: the code of a condition, 1 to 13. -/
def conditionCode (c : Condition) : Nat := conditions.findIdx (fun d => decide (d = c)) + 1

/-- R90: the condition of a code. -/
def conditionOfCode (n : Nat) : Option Condition :=
  match n with
  | 0 => none
  | m + 1 => conditions[m]?

/-! ## Sets (R176: the sum of 2 to the position) -/

/-- The set byte names no position outside `lo` to `hi`, and at least one. -/
def setValid (n lo hi : Nat) : Bool :=
  decide (n ≠ 0) && decide (n % 2 ^ lo = 0) && decide (n < 2 ^ (hi + 1))

/-- The set byte names a position. -/
def setHas (n pos : Nat) : Bool := n.testBit pos

/-! ## Keys (R88, R176) -/

/-- The key of the record of an asset and a condition: ascending in the asset, then in the condition code (R88). -/
def recordKey (asset : Nat) (cond : Condition) : Nat := asset * 16 + conditionCode cond

/-- The asset of a record key. -/
def keyAsset (key : Nat) : Nat := key / 16

/-- The condition code of a record key. -/
def keyCode (key : Nat) : Nat := key % 16

/-- The condition of a record key. Every key is made by `recordKey`; on a number that is no such key this is MAINS-LOST. -/
def keyCondition (key : Nat) : Condition := (conditionOfCode (key % 16)).getD .mainsLost

/-- R176: a record key is the asset in 2 bytes and the condition in 1. -/
def encRecordKey (key : Nat) : List Byte := enc16 (keyAsset key) ++ enc8 (keyCode key)

/-- R176: a slot key is the slot number followed by two bytes of 0. -/
def encSlotKey (slot : Nat) : List Byte := enc8 slot ++ [0#8, 0#8]

/-- The record key at an offset, none when the asset or the condition is out of range. -/
def bodyKey (body : List Byte) (i : Nat) : Option Nat :=
  if u16 body i ≤ Config.maxAsset ∧ 1 ≤ u8 body (i + 2) ∧ u8 body (i + 2) ≤ 13 then
    some (u16 body i * 16 + u8 body (i + 2))
  else none

/-! ## Console frame (R176) -/

/-- The bytes the CRC of a console frame covers: length, kind, tag, body (R167, R180). -/
def frameCovered (f : Frame) : List Byte :=
  enc16 f.body.length ++ [f.kind, f.tag] ++ f.body

/-- R176: the characters of a console frame. -/
def frameChars (f : Frame) : List Byte :=
  0xA6#8 :: (frameCovered f ++ enc16 (crc16 (frameCovered f)).toNat)

/-- R176: the body length that the two length bytes of a frame being received give. -/
def rxLength (chars : List Byte) : Nat := u16 chars 1

/-- R166: the frame holds all its bytes: the lead byte and 6 plus the body length after it (log entry 6). -/
def rxComplete (chars : List Byte) : Bool :=
  decide (3 ≤ chars.length) && decide (chars.length = 7 + rxLength chars)

/-- R167: the computed CRC equals the received one. -/
def rxGood (chars : List Byte) : Bool :=
  let n := rxLength chars
  decide ((crc16 ((chars.drop 1).take (4 + n))).toNat = u16 chars (5 + n))

/-- R176: kind, tag and body of a complete frame. -/
def rxFrame (chars : List Byte) : Frame :=
  { kind := chars.getD 3 0#8, tag := chars.getD 4 0#8, body := (chars.drop 5).take (rxLength chars) }

/-! ## Field frame (R179) -/

/-- R179: the kinds of field frame. -/
inductive FieldKind where
  | poll | snapshot | report | nothing
  deriving DecidableEq, Repr

/-- R179: the kind in the two lowest bits of the control byte. -/
def controlKind (control : Byte) : FieldKind :=
  match control.toNat % 4 with
  | 0 => .poll
  | 1 => .snapshot
  | 2 => .report
  | _ => .nothing

/-- R179: the toggle, the bit of value 16. -/
def controlToggle (control : Byte) : Bool := control.getLsbD 4

/-- R179: MORE, the bit of value 128. -/
def controlMore (control : Byte) : Bool := control.getLsbD 7

/-- R179: the control byte that the part sends. -/
def encControl (kind : FieldKind) (toggle more : Bool) : Byte :=
  BitVec.ofNat 8 ((match kind with
    | .poll => 0
    | .snapshot => 1
    | .report => 2
    | .nothing => 3) + toggle.toNat * 16 + more.toNat * 128)

/-- R179: the characters of a field frame. -/
def fieldFrame (address : Nat) (control : Byte) (body : List Byte) : List Byte :=
  let covered := enc8 address ++ [control] ++ enc8 body.length ++ body
  0xC3#8 :: (covered ++ enc16 (crc16 covered).toNat)

/-- R37: the length character of a reply being received. -/
def replyLength (chars : List Byte) : Nat := u8 chars 3

/-- R37: the length character has arrived and exceeds 240. -/
def replyTooLong (chars : List Byte) : Bool :=
  decide (4 ≤ chars.length) && decide (Config.maxReplyLength < replyLength chars)

/-- R37: the line holds as many characters as the length calls for. -/
def replyHeld (chars : List Byte) : Bool :=
  decide (4 ≤ chars.length) && !replyTooLong chars && decide (chars.length = 6 + replyLength chars)

/-- R39 check 1: the CRC over address, control, length and body equals the received CRC. -/
def replyCrcGood (chars : List Byte) : Bool :=
  let n := replyLength chars
  decide ((crc16 ((chars.drop 1).take (3 + n))).toNat = u16 chars (4 + n))

/-- The body of a reply. -/
def replyBody (chars : List Byte) : List Byte := (chars.drop 4).take (replyLength chars)

/-- R179: one report entry, none when its point or its form is not valid (R39 check 7). -/
def decodeEntry (point form x y : Byte) : Option Entry :=
  if point.toNat ≤ Config.maxPoint then
    if form = 0x01#8 then some { point := point.toNat, data := .digital (if x = 0#8 then 0 else 1) y.toNat }
    else if form = 0x02#8 then some { point := point.toNat, data := .analogue (x.toNat * 256 + y.toNat) }
    else none
  else none

/-- R179: the entries of a body, none when one of them is not valid or the length is no multiple of 4. -/
def decodeEntries : List Byte → Option (List Entry)
  | [] => some []
  | p :: f :: x :: y :: rest =>
    match decodeEntry p f x y, decodeEntries rest with
    | some e, some es => some (e :: es)
    | _, _ => none
  | _ => none

/-! ## Request kinds (R177) -/

/-- R177: code, body length, and whether the kind is refused with BUSY while saving. -/
structure RequestKind where
  code : Nat
  length : Nat
  busySaving : Bool
  deriving DecidableEq, Repr

/-- R177: the table of request kinds. -/
def requestKinds : List RequestKind :=
  [⟨0x10, 5, true⟩, ⟨0x11, 1, true⟩, ⟨0x12, 28, true⟩, ⟨0x13, 2, true⟩, ⟨0x14, 32, true⟩, ⟨0x15, 6, true⟩,
   ⟨0x18, 1, false⟩, ⟨0x19, 2, false⟩, ⟨0x1A, 1, false⟩,
   ⟨0x20, 4, false⟩, ⟨0x21, 0, false⟩, ⟨0x22, 5, true⟩, ⟨0x23, 1, false⟩,
   ⟨0x30, 11, true⟩, ⟨0x31, 1, false⟩, ⟨0x32, 1, false⟩, ⟨0x33, 2, true⟩, ⟨0x34, 1, false⟩,
   ⟨0x40, 2, false⟩,
   ⟨0x50, 3, false⟩, ⟨0x51, 5, false⟩,
   ⟨0x58, 4, false⟩, ⟨0x59, 2, false⟩, ⟨0x5A, 1, false⟩,
   ⟨0x60, 0, false⟩, ⟨0x61, 1, false⟩, ⟨0x62, 5, false⟩, ⟨0x63, 5, true⟩, ⟨0x64, 1, true⟩,
   ⟨0x70, 0, false⟩, ⟨0x71, 1, true⟩,
   ⟨0x78, 0, true⟩, ⟨0x79, 0, true⟩, ⟨0x7A, 0, true⟩]

/-- R177: the row of a code. -/
def requestKind (code : Nat) : Option RequestKind := requestKinds.find? (fun k => decide (k.code = code))

/-- R177: the notice kind HEAD. -/
def headKind : Byte := 0x7F#8

/-- R170: the result codes. -/
inductive Result where
  | ok | badKind | badLength | badValue | notFound | inUse | busy | state | full
  deriving DecidableEq, Repr

/-- R170: the byte of a result code. -/
def Result.code : Result → Byte
  | .ok => 0x00#8
  | .badKind => 0x01#8
  | .badLength => 0x02#8
  | .badValue => 0x03#8
  | .notFound => 0x04#8
  | .inUse => 0x05#8
  | .busy => 0x06#8
  | .state => 0x07#8
  | .full => 0x08#8

end Sys2Proof.Machine
end

