-- ==== Sys2Proof/Machine/Ops.lean ====
section
/-! DEFINITION. The named operations over the blocks' state: reading and changing one entry of a table, and the values that
several blocks derive from the state (priority, mode, holding, time quality). -/

namespace Sys2Proof.Machine

/-- What a command's meaning answers. -/
abbrev Answer := Host.Outcome State Fault Refusal

/-- The run-second as it stands (R19). -/
def now (s : State) : Seconds := s.timebase.runSecond

/-! ## Directory -/

/-- The outstation table's slot, none when undefined (R1). -/
def stationOf (s : State) (n : Nat) : Option Station := Table.find s.directory.stations n

/-- Change a defined outstation. -/
def modStation (n : Nat) (f : Station → Station) (s : State) : State :=
  { s with directory := { s.directory with stations := Table.modify s.directory.stations n f } }

/-- The asset table's entry, none when undefined (R3). -/
def assetOf (s : State) (a : Nat) : Option Asset := Table.find s.directory.assets a

/-- Change a defined asset. -/
def modAsset (a : Nat) (f : Asset → Asset) (s : State) : State :=
  { s with directory := { s.directory with assets := Table.modify s.directory.assets a f } }

/-- R7: a profile as it stands. There are 16; a number past them reads as the factory profile 0 (no asset names one). -/
def profileOf (s : State) (p : Nat) : Profile := s.directory.profiles.getD p Profile.lamps

/-- R7: the profile that an asset uses, as it stands. -/
def assetProfile (s : State) (a : Nat) : Profile :=
  match assetOf s a with
  | some x => profileOf s x.settings.profile
  | none => Profile.lamps

/-- R9: an area's settings as they stand. -/
def areaOf (s : State) (a : Nat) : AreaSettings := Table.lookup {} s.directory.areas a

/-- R5: the defined CABINET that supplies a feeder. -/
def supplier (s : State) (feeder : Nat) : Option (Nat × Asset) :=
  s.directory.assets.find? (fun e => decide (e.2.settings.kind = .cabinet) && decide (e.2.settings.feeder = feeder))

/-! ## Lines -/

/-- The controller of a line. -/
def lineOf (s : State) : FieldLine → LineController
  | .a => s.lines.a
  | .b => s.lines.b
  | .c => s.lines.c
  | .d => s.lines.d

/-- Replace the controller of a line. -/
def Lines.put (ls : Lines) (l : FieldLine) (v : LineController) : Lines :=
  match l with
  | .a => { ls with a := v }
  | .b => { ls with b := v }
  | .c => { ls with c := v }
  | .d => { ls with d := v }

/-- Change the controller of a line. -/
def modLine (l : FieldLine) (f : LineController → LineController) (s : State) : State :=
  { s with lines := s.lines.put l (f (lineOf s l)) }

/-! ## Fault table -/

/-- The record at a key (R88). -/
def recordOf (s : State) (key : Nat) : Option Record := Table.find s.faults key

/-- Change the record at a key, if there is one. -/
def modRecord (key : Nat) (f : Record → Record) (s : State) : State :=
  { s with faults := Table.modify s.faults key f }

/-- The keys of the records that satisfy a test, ascending. -/
def recordKeys (s : State) (p : Nat → Record → Bool) : List Nat :=
  (s.faults.filter (fun e => p e.1 e.2)).map Prod.fst

/-! ## Incident table (R119) -/

/-- The slot of an outstation. -/
def stationSlot (n : Nat) : Nat := n

/-- The slot of a feeder. -/
def feederSlot (f : Nat) : Nat := 120 + f

/-- The slot of an area. -/
def areaSlot (a : Nat) : Nat := 184 + a

/-- The type that the slot number fixes. -/
def slotType (n : Nat) : SlotType :=
  if n ≤ 120 then .outstation else if n ≤ 184 then .feeder else .area

/-- The cause number that the slot number fixes. -/
def slotCause (n : Nat) : Nat :=
  match slotType n with
  | .outstation => n
  | .feeder => n - 120
  | .area => n - 184

/-- A slot as it stands. -/
def slotOf (s : State) (n : Nat) : Slot := Table.lookup {} s.incidents.slots n

/-- Replace a slot. -/
def setSlot (n : Nat) (v : Slot) (s : State) : State :=
  { s with incidents := { s.incidents with slots := Table.store {} s.incidents.slots n v } }

/-- Change a slot. -/
def modSlot (n : Nat) (f : Slot → Slot) (s : State) : State := setSlot n (f (slotOf s n)) s

/-- The storm window of an area as it stands (R135). -/
def windowOf (s : State) (a : Nat) : List Nat := Table.lookup calmWindow s.incidents.storms a

/-- Replace the storm window of an area. -/
def setWindow (a : Nat) (w : List Nat) (s : State) : State :=
  { s with incidents := { s.incidents with storms := Table.store calmWindow s.incidents.storms a w } }

/-- R135: the storm sum. -/
def stormSum (s : State) (a : Nat) : Nat := (windowOf s a).sum

/-- The keys of a slot's members, ascending (R120). -/
def memberKeys (s : State) (slot : Nat) : List Nat :=
  recordKeys s (fun _ r => decide (r.incident = some slot))

/-! ## Conditions (R90) -/

/-- R90: the modes. -/
inductive Mode where
  | persist | gated | count
  deriving DecidableEq, Repr

/-- R90: the mode of a condition. -/
def conditionMode : Condition → Mode
  | .circuitDark | .partialOut | .overcurrent | .dayBurning => .gated
  | .loopChatter => .count
  | _ => .persist

/-- R90: the gate value of a condition, none for any. -/
def conditionGate : Condition → Option GateValue
  | .circuitDark | .partialOut | .overcurrent => some .night
  | .dayBurning => some .day
  | _ => none

/-- R90: whether the confirm term is confirm_band (else confirm_fail). -/
def bandTerm : Condition → Bool
  | .partialOut | .dayBurning | .loopDrift | .stuckPresent | .pixelFault => true
  | _ => false

/-- R111: the terms that a record of a condition copies from a profile. -/
def termsOf (cond : Condition) (p : Profile) : Terms :=
  { confirm := match conditionMode cond with
      | .count => .count p.chatterCount p.chatterWindow
      | _ => .time (if bandTerm cond then p.confirmBand else p.confirmFail)
    clearTime := p.clearTime
    escalateAfter := p.escalateAfter
    autoClose := p.autoClose }

/-- R27: the gate matches a condition: any value for a condition without a gate; else that value, settled. -/
def gateMatches (g : Gate) (cond : Condition) : Bool :=
  match conditionGate cond with
  | none => true
  | some v => decide (g.value = v) && !g.settling

/-! ## Holding (R94) -/

/-- R116: whether a record is held, and by what. -/
inductive HeldBy where
  | notHeld | silent | gate
  deriving DecidableEq, Repr

/-- The outstation of an asset is SILENT. -/
def assetSilent (s : State) (a : Nat) : Bool :=
  match assetOf s a with
  | none => false
  | some x =>
    match stationOf s x.settings.station with
    | none => false
    | some st => decide (st.state = .silent)

/-- R94: whether the records of an asset and condition are held, and by what: by the silence, where both hold them (DESIGN CHOICE, log entry
25). -/
def heldBy (s : State) (a : Nat) (cond : Condition) : HeldBy :=
  if assetSilent s a then .silent
  else if gateMatches s.gate cond then .notHeld
  else .gate

/-- R94: the record at a key is held. -/
def isHeld (s : State) (key : Nat) : Bool :=
  decide (heldBy s (keyAsset key) (keyCondition key) ≠ .notHeld)

/-! ## Priority -/

/-- The priority class of an asset. A number with no defined asset has no records (R88); it reads as class 4. -/
def assetPriority (s : State) (a : Nat) : Nat :=
  match assetOf s a with
  | some x => x.settings.priority
  | none => 4

/-- R110: the effective priority of a record. -/
def recordPriority (s : State) (key : Nat) (r : Record) : Nat :=
  let p := assetPriority s (keyAsset key)
  if r.escalated then max 1 (p - 1) else p

/-- R125: the effective priority of a slot that is not FREE. A slot whose outstation or supplying cabinet is not defined is FREE
(R12, R14); it reads as class 4. -/
def slotPriority (s : State) (n : Nat) : Nat :=
  match slotType n with
  | .outstation => match stationOf s n with
    | some st => st.settings.priority
    | none => 4
  | .feeder => match supplier s (slotCause n) with
    | some e => e.2.settings.priority
    | none => 4
  | .area => (areaOf s (slotCause n)).stormClass

/-! ## Time quality and wall time -/

/-- R25: the time quality. -/
def quality (s : State) : Quality :=
  if s.timebase.timeSet then
    if s.timebase.monitor = .onCrystal then .good else .degraded
  else .unset

/-- R24: the wall time. -/
def wallTime (s : State) : Nat := (now s + s.timebase.wallOffset) % Config.wallModulus

/-! ## Daylight Gate (R28) -/

/-- R28: set the gate to DAY or NIGHT. The value it already holds is no change. -/
def setGate (v : GateValue) (s : State) : State :=
  if s.gate.value = v then s
  else { s with gate := { s.gate with value := v, settling := decide (s.gate.settleTime ≠ 0), count := s.gate.settleTime } }

/-- R28: a change to UNKNOWN. -/
def clearGate (s : State) : State :=
  { s with gate := { s.gate with value := .unknown, settling := false, count := 0 } }

end Sys2Proof.Machine
end

