-- ==== Sys2Proof/Machine/Flags.lean ====
section
/-! DEFINITION. The six sticky status flags (R173): each is set when its cause arises and stays set until READ-STATUS reports it. -/

namespace Sys2Proof.Machine

/-- Change the sticky flags. -/
def modFlags (f : Sticky → Sticky) (s : State) : State :=
  { s with link := { s.link with flags := f s.link.flags } }

/-- R173: a console frame discarded for a length, a gap, a CRC failure or a rate change. -/
def raiseLinkFault (s : State) : State := modFlags (fun f => { f with linkFault := true }) s

/-- R173: a console frame discarded because two were waiting. -/
def raiseOverrun (s : State) : State := modFlags (fun f => { f with overrun := true }) s

/-- R173: the crystal failing qualification or failing in ON-CRYSTAL. -/
def raiseClockFail (s : State) : State := modFlags (fun f => { f with clockFail := true }) s

/-- R173: a present observation dropped because the fault table was full. -/
def raiseTableFull (s : State) : State := modFlags (fun f => { f with tableFull := true }) s

/-- R173: a save that did not complete. -/
def raiseSaveFailed (s : State) : State := modFlags (fun f => { f with saveFailed := true }) s

/-- R173: an unused entry decoded. -/
def raiseUnmapped (s : State) : State := modFlags (fun f => { f with unmapped := true }) s

/-- R174: the sticky flags as a set byte. -/
def stickyByte (f : Sticky) : Nat :=
  f.linkFault.toNat + f.overrun.toNat * 2 + f.clockFail.toNat * 4 + f.tableFull.toNat * 8 + f.saveFailed.toNat * 16 +
    f.unmapped.toNat * 32

end Sys2Proof.Machine
end

