-- ==== Sys2Proof/Machine/Queue.lean ====
section
/-! DEFINITION. The Dispatch Queue and the ALERT output (R145 to R153, R159, R161, R162): needs, rank, placement, withdrawal,
admission, exchange, and what the end of a queue action does. -/

namespace Sys2Proof.Machine

/-! ## Needs and rank -/

/-- R145: the item that a record in a given state needs. -/
def recordNeed (r : Record) : Option Reason :=
  match r.state with
  | .qualifying => none
  | .active | .restoring => if r.incident = none ∧ r.seen = false then some .new else none
  | .restored => if r.incident = none then some .restored else none

/-- R145: the item that a slot in a given state needs. -/
def slotNeed (v : Slot) : Option Reason :=
  match v.state with
  | .free => none
  | .opened | .releasing => if v.seen then none else some .new
  | .restored => some .restored

/-- R145: the item that a thing needs as it stands; a record that is not in the fault table needs none. -/
def needOf (s : State) : Thing → Option Reason
  | .record key => (recordOf s key).bind recordNeed
  | .incident n => slotNeed (slotOf s n)

/-- R147: the item of a thing for a reason, with its rank class and order time as they stand. -/
def mkItem (s : State) (t : Thing) (reason : Reason) : Item :=
  match t with
  | .record key =>
    match recordOf s key, reason with
    | some r, .new => { thing := t, reason, rankClass := recordPriority s key r, orderTime := r.confirmed.getD 0 }
    | some r, .restored => { thing := t, reason, rankClass := 4, orderTime := r.restored.getD 0 }
    | none, _ => { thing := t, reason, rankClass := 4, orderTime := 0 }
  | .incident n =>
    match reason with
    | .new => { thing := t, reason, rankClass := slotPriority s n, orderTime := (slotOf s n).openedAt.getD 0 }
    | .restored => { thing := t, reason, rankClass := 4, orderTime := (slotOf s n).restoredAt.getD 0 }

/-- R147 keys 3 and 4: an incident ranks ahead of a record; the lower key ahead of the higher. -/
def thingAhead : Thing → Thing → Bool
  | .incident n, .incident m => decide (n < m)
  | .incident _, .record _ => true
  | .record _, .incident _ => false
  | .record k, .record j => decide (k < j)

/-- R147: one item ranks ahead of another. -/
def Item.ahead (i j : Item) : Bool :=
  decide (i.rankClass < j.rankClass) ||
    (decide (i.rankClass = j.rankClass) &&
      (decide (i.orderTime < j.orderTime) ||
        (decide (i.orderTime = j.orderTime) && thingAhead i.thing j.thing)))

/-- R150: insert an item at its rank position. -/
def insertItem (i : Item) : List Item → List Item
  | [] => [i]
  | j :: q => if i.ahead j then i :: j :: q else j :: insertItem i q

/-! ## Standing -/

/-- The queued item of a thing. -/
def queuedItem (s : State) (t : Thing) : Option Item :=
  s.dispatch.queue.find? (fun i => decide (i.thing = t))

/-- The waiting mark of a thing (R148). -/
def markOf (s : State) : Thing → Option Reason
  | .record key => (recordOf s key).bind Record.waiting
  | .incident n => (slotOf s n).waiting

/-- Set or clear the waiting mark of a thing. -/
def setMark (m : Option Reason) (t : Thing) (s : State) : State :=
  match t with
  | .record key => modRecord key (fun r => { r with waiting := m }) s
  | .incident n => modSlot n (fun v => { v with waiting := m }) s

/-- R145: a thing's standing in the queue. -/
inductive Standing where
  | none | queued (reason : Reason) | waiting (reason : Reason)
  deriving DecidableEq, Repr

/-- R145: the standing of a thing as it stands. -/
def standingOf (s : State) (t : Thing) : Standing :=
  match queuedItem s t with
  | some i => .queued i.reason
  | none => match markOf s t with
    | some r => .waiting r
    | none => .none

/-- R148: the waiting items, found among all marked records and slots. -/
def waitingItems (s : State) : List Item :=
  s.incidents.slots.filterMap (fun e => e.2.waiting.map (mkItem s (.incident e.1))) ++
    s.faults.filterMap (fun e => e.2.waiting.map (mkItem s (.record e.1)))

/-- R148: the best-ranked of a list of items. -/
def bestItem : List Item → Option Item
  | [] => none
  | i :: q => match bestItem q with
    | none => some i
    | some j => if j.ahead i then some j else some i

/-- Replace the queue's list of items. -/
def setQueue (q : List Item) (s : State) : State :=
  { s with dispatch := { s.dispatch with queue := q } }

/-! ## Places (R150 to R152) -/

/-- R150: place a new item: insert it, displace the last queued item, or let it wait. -/
def placeItem (i : Item) (s : State) : State :=
  if s.dispatch.queue.length < Config.maxQueue then setQueue (insertItem i s.dispatch.queue) s
  else match s.dispatch.queue.getLast? with
    | none => s
    | some last =>
      if i.ahead last then
        setMark (some last.reason) last.thing (setQueue (insertItem i s.dispatch.queue.dropLast) s)
      else setMark (some i.reason) i.thing s

/-- R151: admit the best-ranked waiting item to the place that a withdrawal has left. -/
def admitBest (s : State) : State :=
  if s.dispatch.queue.length < Config.maxQueue then
    match bestItem (waitingItems s) with
    | none => s
    | some i => setMark none i.thing (setQueue (insertItem i s.dispatch.queue) s)
  else s

/-- R151: withdraw the item of a thing; when it was queued, the best-ranked waiting item is admitted. -/
def withdrawItem (t : Thing) (s : State) : State :=
  match queuedItem s t with
  | some _ => admitBest (setMark none t (setQueue (s.dispatch.queue.filter (fun i => decide (i.thing ≠ t))) s))
  | none => setMark none t s

/-- R152 step 2: while the queue is full and the best-ranked waiting item ranks ahead of the last queued item, the two
exchange places; a rank change makes at most one exchange. -/
def exchangeLast (s : State) : State :=
  if s.dispatch.queue.length < Config.maxQueue then s
  else match bestItem (waitingItems s), s.dispatch.queue.getLast? with
    | some w, some last =>
      if w.ahead last then
        setMark (some last.reason) last.thing
          (setMark none w.thing (setQueue (insertItem w s.dispatch.queue.dropLast) s))
      else s
    | _, _ => s

/-- R152: an item whose reason or rank has changed takes its new place. -/
def rerankItem (i : Item) (s : State) : State :=
  match queuedItem s i.thing with
  | some _ =>
    exchangeLast (setQueue (insertItem i (s.dispatch.queue.filter (fun j => decide (j.thing ≠ i.thing)))) s)
  | none => exchangeLast (setMark (some i.reason) i.thing s)

/-- R149: compare a thing's need with its standing, and act. -/
def handThing (t : Thing) (s : State) : State :=
  match standingOf s t, needOf s t with
  | .none, none => s
  | .none, some r => placeItem (mkItem s t r) s
  | _, none => withdrawItem t s
  | _, some r => if queuedItem s t = some (mkItem s t r) then s else rerankItem (mkItem s t r) s

/-! ## The end of a queue action -/

/-- R146: the summary of an item, made from its thing as it stands. -/
def summaryOf (s : State) (i : Item) : Summary :=
  { item := i
    detail := match i.thing with
      | .record key =>
        match assetOf s (keyAsset key), recordOf s key with
        | some x, some r => .record x.settings.kind r.recurrence r.escalated
        | _, _ => .record .cabinet 0 false
      | .incident n => .incident (slotType n) (slotOf s n).members }

/-- R148: the head. -/
def headOf (s : State) : Option Item := s.dispatch.queue.head?

/-- R159: two heads are the same when thing and reason are. -/
def headSame (i j : Option Item) : Bool :=
  decide (i.map (fun x => (x.thing, x.reason)) = j.map (fun x => (x.thing, x.reason)))

/-- R159: when the head has changed since `old` and notices are on, a notice of the head as it stands becomes pending. -/
def noteHead (old : Option Item) (s : State) : State :=
  if s.dispatch.notices && !headSame old (headOf s) then
    { s with dispatch := { s.dispatch with notice := some ((headOf s).map (summaryOf s)) } }
  else s

/-- R161: the ALERT state that a list of queued items gives. -/
def alertFor (q : List Item) : AlertState :=
  if q.any (fun i => decide (i.reason = .new) && decide (i.rankClass = 1)) then .steady
  else if q.any (fun i => decide (i.reason = .new)) then .flash
  else .idle

/-- R161, R162: put the ALERT output in a state and drive the pin. -/
def driveAlert (a : AlertState) (d : Dispatch) : Dispatch :=
  match a with
  | .steady => { d with alert := .steady, pinHigh := d.alertSettings.activeHigh, flash := none }
  | .idle => { d with alert := .idle, pinHigh := !d.alertSettings.activeHigh, flash := none }
  | .flash =>
    if d.alert = .flash then d
    else { d with alert := .flash, pinHigh := d.alertSettings.activeHigh, flash := some { onPhase := true, settings := d.alertSettings } }

/-- R153: at the end of a queue action the ALERT state is derived again. -/
def noteAlert (s : State) : State :=
  { s with dispatch := driveAlert (alertFor s.dispatch.queue) s.dispatch }

/-- R149, R153: one queue action for one hand-over: each thing in the order handed, then the head notice and ALERT. -/
def queueAction (ts : List Thing) (s : State) : State :=
  noteAlert (noteHead (headOf s) (ts.foldl (fun s t => handThing t s) s))

end Sys2Proof.Machine
end

