-- ==== Sys2Proof/Machine/Incidents.lean ====
section
/-! DEFINITION. The Incident Table (R119 to R140): joining and release, member removal, outstation, feeder and area incidents,
storm windows, seen propagation. Functions named `…Slots` change the tables only; the queue is handed the things they touched by
their caller, in one queue action per event (log entry 11). Handing over a thing whose need and rank are unchanged is no action (R149). -/

namespace Sys2Proof.Machine

/-- The things of a slot and its members, as one hand-over carries them. -/
def slotThings (s : State) (n : Nat) : List Thing :=
  .incident n :: (memberKeys s n).map .record

/-! ## Joining and release -/

/-- R120: a record joins a slot. -/
def joinSlot (n : Nat) (s : State) (key : Nat) : State :=
  let seen := (slotOf s n).seen
  modRecord key (fun r => { r with incident := some n, seen := r.seen || seen })
    (modSlot n (fun v => { v with members := v.members + 1 }) s)

/-- R120: several records join a slot, in the order of the list. -/
def joinAll (n : Nat) (keys : List Nat) (s : State) : State := keys.foldl (joinSlot n) s

/-- R121: a member is released from its slot. -/
def releaseMember (n : Nat) (s : State) (key : Nat) : State :=
  modRecord key (fun r => { r with incident := none })
    (modSlot n (fun v => { v with members := v.members - 1 }) s)

/-- R121: every member is released, in ascending key order. -/
def releaseAll (n : Nat) (s : State) : State := (memberKeys s n).foldl (releaseMember n) s

/-- R119: a slot becomes FREE and takes the field values of its "At FREE" column. -/
def freeSlot (n : Nat) (s : State) : State := setSlot n {} s

/-- R130: the release_wait of the profile that the feeder's supplying cabinet uses, as it stands. A feeder that no defined
cabinet supplies has no open incident (R5, R14); it reads as 0. -/
def releaseWait (s : State) (feeder : Nat) : Seconds :=
  match supplier s feeder with
  | some e => (profileOf s e.2.settings.profile).releaseWait
  | none => 0

/-- R122: the effect on its slot of removing a member. -/
def memberGone (n key : Nat) (s : State) : State :=
  match slotType n with
  | .outstation => modSlot n (fun v => { v with members := v.members - 1 }) s
  | .feeder =>
    if (slotOf s n).state = .opened ∧ (slotOf s n).root = some key then
      modSlot n (fun v => { v with members := v.members - 1, state := .releasing, release := releaseWait s (slotCause n), root := none }) s
    else modSlot n (fun v => { v with members := v.members - 1 }) s
  | .area =>
    if (slotOf s n).state = .opened ∧ (slotOf s n).absorbing = false ∧ (slotOf s n).members ≤ 1 then
      modSlot n (fun v => { v with members := v.members - 1, state := .restored, restoredAt := some (now s) }) s
    else modSlot n (fun v => { v with members := v.members - 1 }) s

/-- R108 steps 1 and 2: a record leaves the fault table and its slot acts on it. -/
def takeRecord (key : Nat) (s : State) : State :=
  match recordOf s key with
  | none => s
  | some r =>
    let s := { s with faults := Table.erase s.faults key }
    match r.incident with
    | none => s
    | some n => memberGone n key s

/-- The things that the removal of a record touches: its slot, if it was a member, and itself. -/
def removalThings (s : State) (key : Nat) : List Thing :=
  match (recordOf s key).bind Record.incident with
  | none => [.record key]
  | some n => [.incident n, .record key]

/-- R108: a record is removed. -/
def removeRecord (key : Nat) (s : State) : State :=
  queueAction (removalThings s key) (takeRecord key s)

/-- R124: a member that enters RESTORED is removed, but for a member of an outstation slot. -/
def memberRestored (key : Nat) (s : State) : State :=
  match (recordOf s key).bind Record.incident with
  | none => s
  | some n => if slotType n = .outstation then s else takeRecord key s

/-! ## Storm windows (R135) -/

/-- R135: the current bucket rises by 1 and saturates at 255. -/
def bumpWindow : List Nat → List Nat
  | [] => []
  | [n] => [min 255 (n + 1)]
  | n :: w => n :: bumpWindow w

/-- R136: the oldest bucket is cleared and becomes the current one. -/
def rotateWindow (w : List Nat) : List Nat := w.drop 1 ++ [0]

/-- R123 step 1, R135. -/
def countStorm (area : Nat) (s : State) : State :=
  if area = 0 then s else setWindow area (bumpWindow (windowOf s area)) s

/-! ## Feeder incidents -/

/-- ACTIVE or RESTORING, unseen and no member: the candidates of a feeder or area opening. -/
def standing (r : Record) : Bool :=
  (decide (r.state = .active) || decide (r.state = .restoring)) && !r.seen && decide (r.incident = none)

/-- The record's asset satisfies a test. -/
def assetIs (s : State) (key : Nat) (p : AssetSettings → Bool) : Bool :=
  match assetOf s (keyAsset key) with
  | some x => p x.settings
  | none => false

/-- R129: CIRCUIT-DARK and PARTIAL-OUT. -/
def darkCondition (c : Condition) : Bool := decide (c = .circuitDark) || decide (c = .partialOut)

/-- R129: the records that a feeder incident gathers. -/
def feederCandidates (s : State) (feeder : Nat) : List Nat :=
  recordKeys s (fun key r => standing r && darkCondition (keyCondition key) &&
    assetIs s key (fun x => decide (x.kind = .lampCircuit) && decide (x.feeder = feeder)))

/-- R129, R133: the feeder's slot opens or reopens with a root and gathers its circuits. -/
def openFeederSlots (feeder key : Nat) (s : State) : State :=
  let n := feederSlot feeder
  let s := modSlot n (fun v => { v with
    state := .opened, seen := false, openedAt := some (now s), restoredAt := none, release := 0, root := some key, leftBehind := 0 }) s
  let s := joinSlot n s key
  joinAll n (feederCandidates s feeder) s

/-- R123 step 2. -/
def rootSlots (key : Nat) (x : AssetSettings) (s : State) : State :=
  if keyCondition key = .mainsLost ∧ x.kind = .cabinet ∧ x.feeder ≠ 0 ∧ (slotOf s (feederSlot x.feeder)).state ≠ .opened then
    openFeederSlots x.feeder key s
  else s

/-- R123 step 3, R130. -/
def feederClaimSlots (key : Nat) (x : AssetSettings) (s : State) : State :=
  if darkCondition (keyCondition key) ∧ x.kind = .lampCircuit ∧ x.feeder ≠ 0 ∧ (slotOf s (feederSlot x.feeder)).state = .opened then
    joinSlot (feederSlot x.feeder) s key
  else s

/-! ## Area incidents -/

/-- R137: the records that an area incident gathers. -/
def areaCandidates (s : State) (area : Nat) : List Nat :=
  recordKeys s (fun key r => standing r && assetIs s key (fun x => decide (x.area = area)))

/-- R137: the opening test holds. -/
def areaOpens (s : State) (area : Nat) : Bool :=
  decide ((areaOf s area).stormThreshold ≠ 0) && decide ((areaOf s area).stormThreshold ≤ stormSum s area) &&
    !(slotOf s (areaSlot area)).absorbing

/-- R137: the opening test of an area, and the opening. -/
def areaTestSlots (area : Nat) (s : State) : State :=
  if areaOpens s area then
    let s := modSlot (areaSlot area) (fun v => { v with
      state := .opened, absorbing := true, seen := false, openedAt := some (now s), restoredAt := none }) s
    joinAll (areaSlot area) (areaCandidates s area) s
  else s

/-- R123 step 4, R138: an absorbing area slot claims a record that is still no member. -/
def areaClaimSlots (area key : Nat) (s : State) : State :=
  let v := slotOf s (areaSlot area)
  if v.state = .opened ∧ v.absorbing = true ∧ (recordOf s key).bind Record.incident = none then joinSlot (areaSlot area) s key
  else s

/-- R123: what the Incident Table does with a record that confirms. -/
def claimSlots (key : Nat) (s : State) : State :=
  match assetOf s (keyAsset key) with
  | none => s
  | some x =>
    let s := countStorm x.settings.area s
    let s := rootSlots key x.settings s
    let s := feederClaimSlots key x.settings s
    if x.settings.area = 0 then s
    else areaClaimSlots x.settings.area key (areaTestSlots x.settings.area s)

/-- The things that a confirmation may have touched: the feeder's and the area's slot with their members, and the record. -/
def claimThings (key : Nat) (s : State) : List Thing :=
  match assetOf s (keyAsset key) with
  | none => [.record key]
  | some x =>
    (if x.settings.feeder = 0 then [] else slotThings s (feederSlot x.settings.feeder)) ++
      (if x.settings.area = 0 then [] else slotThings s (areaSlot x.settings.area)) ++ [.record key]

/-! ## Outstation incidents -/

/-- R126: the records that an outstation incident gathers. -/
def stationCandidates (s : State) (n : Nat) : List Nat :=
  recordKeys s (fun key r => decide (r.state ≠ .qualifying) && !r.seen && decide (r.incident = none) &&
    assetIs s key (fun x => decide (x.station = n)))

/-- R126: an outstation has become SILENT: its slot opens and gathers. -/
def openStation (n : Nat) (s : State) : State :=
  let slot := stationSlot n
  let s := modSlot slot (fun v => { v with state := .opened, seen := false, openedAt := some (now s), restoredAt := none }) s
  let s := joinAll slot (stationCandidates s n) s
  queueAction (slotThings s slot) s

/-- R128: an outstation has returned from SILENT: its slot is restored and every member is released. -/
def restoreStation (n : Nat) (s : State) : State :=
  let slot := stationSlot n
  let things := slotThings s slot
  let s := releaseAll slot s
  let s := modSlot slot (fun v => { v with state := .restored, restoredAt := some (now s) }) s
  queueAction things s

/-! ## Ticks of the Incident Table -/

/-- R132: a RELEASING slot's release timer has reached 0. -/
def expireRelease (feeder : Nat) (s : State) : State :=
  let n := feederSlot feeder
  let things := slotThings s n
  let s := modSlot n (fun v => { v with leftBehind := v.members, release := 0 }) s
  let s := releaseAll n s
  let s := modSlot n (fun v => { v with state := .restored, restoredAt := some (now s) }) s
  queueAction things s

/-- R136: the calm test of an area passes. -/
def areaCalm (s : State) (area : Nat) : Bool :=
  decide ((areaOf s area).stormThreshold = 0) || decide (stormSum s area ≤ (areaOf s area).calmLevel)

/-- R136: the calm test of an area slot, after the rotation. -/
def calmSlots (s : State) (area : Nat) : State :=
  let v := slotOf s (areaSlot area)
  if v.state = .opened ∧ v.absorbing = true ∧ areaCalm s area = true then
    if v.members = 0 then
      modSlot (areaSlot area) (fun v => { v with absorbing := false, state := .restored, restoredAt := some (now s) }) s
    else modSlot (areaSlot area) (fun v => { v with absorbing := false }) s
  else s

/-- The areas 1 to 64. -/
def areaNumbers : List Nat := (List.range 64).map (· + 1)

/-- R136: the rotation of one area's window. -/
def rotateArea (s : State) (area : Nat) : State := setWindow area (rotateWindow (windowOf s area)) s

/-- R136: the rotation of every window, and the calm tests. -/
def rotateStorms (s : State) : State :=
  let s := areaNumbers.foldl rotateArea s
  let s := areaNumbers.foldl calmSlots s
  queueAction (areaNumbers.map (fun a => .incident (areaSlot a))) s

/-! ## Seen propagation and BREAK-OUT -/

/-- R140: an ACKNOWLEDGE with reason NEW marks the slot and every member seen. -/
def markSlotSeen (n : Nat) (s : State) : State :=
  (memberKeys s n).foldl (fun s key => modRecord key (fun r => { r with seen := true }) s)
    (modSlot n (fun v => { v with seen := true }) s)

/-- R141: every member is released and the slot becomes FREE. -/
def breakSlot (n : Nat) (s : State) : State :=
  queueAction (slotThings s n) (freeSlot n (releaseAll n s))

end Sys2Proof.Machine
end

