-- ==== Sys2Proof/Machine/Records.lean ====
section
/-! DEFINITION. The Qualifier (R88 to R115): creation, observations, confirmation, restoration, recurrence, escalation, the
record's part of a tick, and the take-up of profile edits. -/

namespace Sys2Proof.Machine

/-- R91: add an entry to a trail, which keeps the last four. -/
def addTrail (t : List TrailEntry) (e : TrailEntry) : List TrailEntry :=
  if t.length < 4 then t ++ [e] else t.drop (t.length - 3) ++ [e]

/-- R91: enter a state: the state, its trail entry, and the timer at 0 (R95). -/
def enterState (st : RecordState) (t : Seconds) (r : Record) : Record :=
  { r with state := st, timer := 0, trail := addTrail r.trail { entered := st, time := t } }

/-- The profile's terms for the record at a key, as the profile stands (R111). -/
def profileTerms (s : State) (key : Nat) : Terms :=
  termsOf (keyCondition key) (assetProfile s (keyAsset key))

/-! ## Escalation (R109, R110) -/

/-- R109: the record is ACTIVE or RESTORING, unseen and no member: with not being held, what the escalation timer and test need. -/
def escalates (r : Record) : Bool :=
  decide (r.terms.escalateAfter ≠ 0) && decide (r.terms.escalateAfter ≤ r.escTimer) && !r.escalated && standing r

/-- R109, R110: the escalation test; a record whose effective priority changes is handed to the queue. -/
def escalationTest (key : Nat) (s : State) : State :=
  match recordOf s key with
  | none => s
  | some r =>
    if escalates r && !isHeld s key then
      queueAction [.record key] (modRecord key (fun r => { r with escalated := true }) s)
    else s

/-- R111: the record takes its terms from the profile as it stands; R109: the escalation test follows each taking. -/
def takeTerms (key : Nat) (s : State) : State :=
  escalationTest key (modRecord key (fun r => { r with terms := profileTerms s key }) s)

/-! ## Confirmation (R100) -/

/-- R100 steps 2 and 3. -/
def confirmFields (t : Seconds) (q : Quality) (r : Record) : Record :=
  { enterState .active t r with
    seen := false, escalated := false, escTimer := 0, confirmed := some t, restored := none, windowLeft := none, quality := some q }

/-- R100: a record confirms. -/
def confirmRecord (key : Nat) (s : State) : State :=
  let s := takeTerms key s
  let s := modRecord key (confirmFields (now s) (quality s)) s
  let s := claimSlots key s
  queueAction (claimThings key s) s

/-! ## Creation (R92, R93) -/

/-- R92: a new record. -/
def newRecord (t : Seconds) (terms : Terms) (weight : Nat) : Record :=
  { state := .qualifying, observed := true, seen := false, escalated := false, recurrence := 0, incident := none, created := t,
    confirmed := none, restored := none, timer := 0
    evidence := match terms.confirm with
      | .count _ _ => weight
      | .time _ => 0
    windowLeft := match terms.confirm with
      | .count _ w => some w
      | .time _ => none
    escTimer := 0, terms := terms, lampsOut := none, quality := none, trail := [{ entered := .qualifying, time := t }], waiting := none }

/-- R92, R98: a COUNT record's evidence has reached its chatter_count. -/
def evidenceFull (r : Record) : Bool :=
  match r.terms.confirm with
  | .count n _ => decide (n ≤ r.evidence)
  | .time _ => false

/-- R98, R100: confirm a QUALIFYING COUNT record whose evidence is full. -/
def confirmIfFull (key : Nat) (s : State) : State :=
  match recordOf s key with
  | none => s
  | some r => if decide (r.state = .qualifying) && evidenceFull r then confirmRecord key s else s

/-- R92, R93: a present observation for a key with no record. -/
def createRecord (key weight : Nat) (s : State) : State :=
  if s.faults.length < Config.maxRecords then
    confirmIfFull key { s with faults := Table.insert s.faults key (newRecord (now s) (profileTerms s key) weight) }
  else raiseTableFull s

/-! ## Active, restoring, restored -/

/-- R98, R101, R102: the evidence of a COUNT record rises by a weight and saturates; other records keep 0. -/
def addEvidence (weight : Nat) (r : Record) : Record :=
  match r.terms.confirm with
  | .count _ _ => { r with evidence := min 65535 (r.evidence + weight) }
  | .time _ => r

/-- R101: an ACTIVE record observed absent enters RESTORING. -/
def enterRestoring (key : Nat) (s : State) : State :=
  takeTerms key (modRecord key (enterState .restoring (now s)) s)

/-- R102: a RESTORING record observed present returns to ACTIVE. -/
def returnToActive (key weight : Nat) (s : State) : State :=
  takeTerms key (modRecord key (fun r => addEvidence weight (enterState .active (now s) r)) s)

/-- R104: an unseen record whose auto_close term is on. -/
def closesItself (r : Record) : Bool := !r.seen && r.terms.autoClose

/-- R103: a record enters RESTORED; R104: it may be removed at once. -/
def enterRestored (key : Nat) (s : State) : State :=
  let s := takeTerms key s
  let s := modRecord key (fun r => { enterState .restored (now s) r with restored := some (now s) }) s
  match recordOf s key with
  | none => s
  | some r =>
    if closesItself r then removeRecord key s
    else queueAction (removalThings s key) (memberRestored key s)

/-- R105 step 2, for a COUNT record: evidence and window start again. -/
def restartWindow (weight : Nat) (r : Record) : Record :=
  match r.terms.confirm with
  | .count _ w => { r with evidence := weight, windowLeft := some w }
  | .time _ => r

/-- R105: a RESTORED record observed present returns to QUALIFYING. -/
def recur (key weight : Nat) (s : State) : State :=
  let s := takeTerms key s
  let s := modRecord key (fun r =>
    restartWindow weight { enterState .qualifying (now s) r with recurrence := min 255 (r.recurrence + 1) }) s
  confirmIfFull key (queueAction [.record key] s)

/-! ## Observations (R95) -/

/-- R95: what an observation does to a record that exists, after its observed field has been set. -/
def observeRecord (key weight : Nat) (present : Bool) (r : Record) (s : State) : State :=
  match r.state, present with
  | .qualifying, true => confirmIfFull key (modRecord key (addEvidence weight) s)
  | .qualifying, false => match r.terms.confirm with
    | .time _ => removeRecord key s
    | .count _ _ => s
  | .active, true => modRecord key (addEvidence weight) s
  | .active, false => enterRestoring key s
  | .restoring, true => returnToActive key weight s
  | .restoring, false => s
  | .restored, true => recur key weight s
  | .restored, false => s

/-- R92 to R106: one observation, applied in full. R94: while the record is held the observation is discarded. -/
def observe (asset : Nat) (cond : Condition) (present : Bool) (weight : Nat) (s : State) : State :=
  let key := recordKey asset cond
  if heldBy s asset cond ≠ .notHeld then s
  else match recordOf s key with
    | none => if present then createRecord key weight s else s
    | some r => observeRecord key weight present r (modRecord key (fun r => { r with observed := present }) s)

/-! ## A record's part of a tick -/

/-- What a tick brings to its end in a record. -/
structure Ending where
  /-- R96 -/
  confirms : Bool := false
  /-- R99 -/
  expires : Bool := false
  /-- R102 -/
  clears : Bool := false
  /-- R109 -/
  escalates : Bool := false
  deriving DecidableEq, Repr

/-- R96: the next unheld tick brings the timer to the confirm term. -/
def confirmsNext (r : Record) : Bool :=
  match r.terms.confirm with
  | .time t => decide (r.state = .qualifying) && decide (t ≤ r.timer + 1)
  | .count _ _ => false

/-- R99: the next unheld tick brings window_left to 0. -/
def expiresNext (r : Record) : Bool :=
  match r.terms.confirm with
  | .time _ => false
  | .count _ _ => decide (r.state = .qualifying) && decide (r.windowLeft.getD 0 ≤ 1)

/-- R102: the next unheld tick brings the timer to clear_time. -/
def clearsNext (r : Record) : Bool := decide (r.state = .restoring) && decide (r.terms.clearTime ≤ r.timer + 1)

/-- R109: the escalation timer after an unheld tick that finds the record as it stands. -/
def riseEscTimer (r : Record) : Record :=
  if standing r then { r with escTimer := min 65535 (r.escTimer + 1) } else r

/-- What the next unheld tick brings to its end in a record. -/
def endingOf (r : Record) : Ending :=
  { confirms := confirmsNext r, expires := expiresNext r, clears := clearsNext r, escalates := escalates (riseEscTimer r) }

/-- The tick brings something to its end. -/
def Ending.any (e : Ending) : Bool := e.confirms || e.expires || e.clears || e.escalates

/-- R96, R99, R102, R109: the counts of a record that an unheld tick brings to no end. -/
def countTick (r : Record) : Record :=
  match r.state with
  | .qualifying => match r.terms.confirm with
    | .time _ => { r with timer := r.timer + 1 }
    | .count _ _ => { r with windowLeft := r.windowLeft.map (· - 1) }
  | .active => riseEscTimer r
  | .restoring => riseEscTimer { r with timer := r.timer + 1 }
  | .restored => r

/-- R109: the escalation timer of the record rises and the test is made. -/
def escalationTick (key : Nat) (s : State) : State := escalationTest key (modRecord key riseEscTimer s)

/-- R102, R109: a RESTORING record's tick that brings its timer to clear_time. `escalateFirst` says whether the rise of the
escalation timer and its test come before the record enters RESTORED or after it (log entry 4): after it, the timer rises, for the
tick found the record RESTORING, and the test fails. -/
def clearingTick (escalateFirst : Bool) (key : Nat) (r : Record) (s : State) : State :=
  if escalateFirst then enterRestored key (escalationTick key s)
  else
    let s := enterRestored key s
    if standing r then modRecord key (fun r => { r with escTimer := min 65535 (r.escTimer + 1) }) s else s

/-- R96, R99, R102, R109: the record at a key takes a tick whole. -/
def recordTick (escalateFirst : Bool) (key : Nat) (s : State) : State :=
  match recordOf s key with
  | none => s
  | some r =>
    if isHeld s key then s
    else if confirmsNext r then confirmRecord key s
    else if expiresNext r then removeRecord key s
    else if clearsNext r then clearingTick escalateFirst key r s
    else escalationTest key (modRecord key countTick s)

/-- The order of escalation and clearing when no command says it: the free constant, for every record that the tick brings to its clear time,
for the terms it takes there (R103 step 1) may be the ones that escalate it (DESIGN CHOICE, log entry 4). -/
def defaultEscalateFirst (r : Record) : Bool := !clearsNext r || Config.escalatesBeforeClearing

/-- The order that CLEAR_TIME_REACHED gives: clearing first where the terms the record holds escalate it too, so that ESCALATION could have come
first; the free constant where only the terms that it takes on clearing may (log entry 4). -/
def clearingOrder (r : Record) : Bool := !escalates (riseEscTimer r) && defaultEscalateFirst r

/-- The record at a key takes a tick whole, in the order of escalation and clearing that `order` gives. -/
def recordTickBy (order : Record → Bool) (key : Nat) (s : State) : State :=
  match recordOf s key with
  | none => s
  | some r => recordTick (order r) key s

/-- The record at a key takes a tick whole, in the default order. -/
def recordTickDefault (s : State) (key : Nat) : State := recordTickBy defaultEscalateFirst key s

/-! ## Immediate take-up (R112 to R115) -/

/-- R113, R114: what the check of a record's state comes to. -/
inductive TakeUp where
  | keep | confirm | restore | remove
  | window (left : Seconds)
  deriving DecidableEq, Repr

/-- R113, R114: the check of a record under its new terms; `r` holds the old terms. -/
def takeUpCheck (r : Record) (new : Terms) : TakeUp :=
  match r.state with
  | .qualifying =>
    match r.terms.confirm, new.confirm with
    | _, .time t => if t ≤ r.timer then .confirm else .keep
    | .count _ w, .count n w' =>
      if n ≤ r.evidence then .confirm
      else
        let spent := w - r.windowLeft.getD 0
        if w' ≤ spent then .remove else .window (w' - spent)
    | .time _, .count n _ => if n ≤ r.evidence then .confirm else .keep
  | .restoring => if new.clearTime ≤ r.timer then .restore else .keep
  | _ => .keep

/-- R112 to R115: one record adopts the new terms and is checked in place. -/
def takeUpRecord (s : State) (key : Nat) : State :=
  match recordOf s key with
  | none => s
  | some r =>
    let new := profileTerms s key
    let s := modRecord key (fun r => { r with terms := new }) s
    let s := match takeUpCheck r new with
      | .keep => s
      | .confirm => confirmRecord key s
      | .restore => enterRestored key s
      | .remove => removeRecord key s
      | .window left => modRecord key (fun r => { r with windowLeft := some left }) s
    escalationTest key s

/-- R112: every record whose asset uses the profile adopts the new terms, in ascending key order. -/
def takeUpProfile (p : Nat) (s : State) : State :=
  (recordKeys s (fun key _ => assetIs s key (fun x => decide (x.profile = p)))).foldl takeUpRecord s

end Sys2Proof.Machine
end

