-- ==== Sys2Proof/Machine/Classifier.lean ====
section
/-! DEFINITION. The Reading Classifier (R71 to R86): from a reading of an asset to its fields and observations. The arithmetic is on
integers, products before divisions, every quotient truncated toward zero. -/

namespace Sys2Proof.Machine

/-- R72: an observation, for the asset of its reading. -/
structure Observation where
  cond : Condition
  present : Bool
  weight : Nat := 0
  deriving DecidableEq, Repr

/-- R73: the scaled reading. -/
def scaleReading (doubling : Bool) (x : Nat) : Nat := if doubling then min 65535 (2 * x) else x

/-- R77: the deviation of a scaled reading from a learned reference, in units of 0.01 %. -/
def deviation (x r : Nat) : Int :=
  max (-10000) (min 32767 ((((x : Int) - r) * 10000).tdiv r))

/-- R78: the band of a deviation. -/
def bandOf (p : Profile) (d : Int) : Band :=
  if d ≤ p.failLow then .failLow
  else if d ≤ p.low then .low
  else if p.failHigh ≤ d then .failHigh
  else if p.high ≤ d then .high
  else .normal

/-- R79: the band conditions of a kind, each with the band in which it is present, in ascending code. -/
def bandConditions : AssetKind → List (Condition × Band)
  | .cabinet => []
  | .lampCircuit => [(.circuitDark, .failLow), (.partialOut, .low), (.overcurrent, .failHigh)]
  | .loop => [(.loopOpen, .failLow), (.loopShort, .failHigh), (.loopDrift, .low), (.stuckPresent, .high)]
  | .sign => [(.signDark, .failLow)]

/-- R79: the observations of a band. -/
def bandObservations (kind : AssetKind) (b : Band) : List Observation :=
  (bandConditions kind).map (fun e => { cond := e.1, present := decide (e.2 = b) })

/-- R80: the tracking step. -/
def trackStep (x r shift : Nat) : Int :=
  let step := ((x : Int) - r).tdiv ((2 : Int) ^ shift)
  if step = 0 then (if r < x then 1 else if x < r then -1 else 0) else step

/-- R80: the reference after a NORMAL reading. -/
def trackReference (x r shift : Nat) : Nat := ((r : Int) + trackStep x r shift).toNat

/-- R81: the estimate from a deviation, for a band other than FAIL-LOW. -/
def deviationEstimate (d : Int) (lamps : Nat) : Nat :=
  if d < 0 then min lamps ((d.natAbs * lamps + 5000) / 10000) else 0

/-- R81: the lamps-out estimate. -/
def lampsEstimate (b : Band) (d : Int) (lamps : Nat) : Nat :=
  if b = .failLow then lamps else deviationEstimate d lamps

/-- R74: the paths of a lamp-circuit reading. -/
inductive GatePath where
  | daytime | judged | held
  deriving DecidableEq, Repr

/-- R74: the path that the gate gives a lamp-circuit reading. -/
def lampPath (g : Gate) : GatePath :=
  match g.value, g.settling with
  | .day, false => .daytime
  | .night, false => .judged
  | _, _ => .held

/-- R76 to R80: what stages 3 to 7 make of a scaled reading: the band, the reference after it, and the deviation (0 where none is
computed). -/
structure Judgement where
  band : Band
  reference : Nat
  deviation : Int
  deriving DecidableEq, Repr

/-- R76: an unlearned asset's reading; R77, R78, R80: a learned one's. -/
def judge (p : Profile) (reference x : Nat) : Judgement :=
  if reference = 0 then
    if p.learnFloor ≤ x then { band := .normal, reference := x, deviation := 0 }
    else { band := .failLow, reference := 0, deviation := 0 }
  else
    let d := deviation x reference
    let b := bandOf p d
    { band := b, reference := if b = .normal then trackReference x reference p.trackShift else reference, deviation := d }

/-- R72: observations are handed in order, each after the one before has been applied in full. -/
def observeAll (a : Nat) (os : List Observation) (s : State) : State :=
  os.foldl (fun s o => observe a o.cond o.present o.weight s) s

/-- R82: the estimate is written into a record that is QUALIFYING, ACTIVE or RESTORING. -/
def writeEstimate (key n : Nat) (s : State) : State :=
  modRecord key (fun r => if r.state = .restored then r else { r with lampsOut := some n }) s

/-- R75: the daytime comparison. -/
def daytimeReading (a : Nat) (p : Profile) (x : Nat) (s : State) : State :=
  observe a .dayBurning (decide (p.dayLimit < x)) 0 s

/-- R76 to R82: a reading that reaches stage 3. -/
def judgedReading (a : Nat) (x : Asset) (p : Profile) (scaled : Nat) (s : State) : State :=
  let j := judge p x.reference scaled
  let estimate := lampsEstimate j.band j.deviation x.settings.lampCount
  let lamp := x.settings.kind = .lampCircuit
  let s := modAsset a (fun x => { x with
    reference := j.reference, lastBand := some j.band, lampsOut := if lamp then some estimate else x.lampsOut }) s
  let s := observeAll a (bandObservations x.settings.kind j.band) s
  if lamp then writeEstimate (recordKey a .partialOut) estimate (writeEstimate (recordKey a .circuitDark) estimate s) else s

/-- R73 to R82: a MAIN reading. -/
def mainReading (a value : Nat) (s : State) : State :=
  match assetOf s a with
  | none => s
  | some x =>
    let p := assetProfile s a
    let scaled := scaleReading x.settings.doubling value
    let s := modAsset a (fun x => { x with lastMain := some value }) s
    match x.settings.kind with
    | .cabinet => s
    | .lampCircuit => match lampPath s.gate with
      | .daytime => daytimeReading a p scaled s
      | .held => s
      | .judged => judgedReading a x p scaled s
    | .loop => judgedReading a x p scaled s
    | .sign => judgedReading a x p scaled s

/-- R84: an AUX reading. -/
def auxReading (a value : Nat) (s : State) : State :=
  let p := assetProfile s a
  let s := modAsset a (fun x => { x with lastAux := some value }) s
  observe a .pixelFault (decide (p.pixelLimit ≤ value)) 0 s

/-- R85: a SUPPLY reading. -/
def supplyReading (a state : Nat) (s : State) : State := observe a .mainsLost (decide (state = 0)) 0 s

/-- R85: a DOOR reading. -/
def doorReading (a state : Nat) (s : State) : State := observe a .doorOpen (decide (state ≠ 0)) 0 s

/-- R86: the excess of an edge count over the allowance of the loop's profile. -/
def edgeExcess (s : State) (a edges : Nat) : Nat := edges - (assetProfile s a).edgeAllowance

/-- R86: a DETECT reading. -/
def detectReading (a edges : Nat) (s : State) : State :=
  observe a .loopChatter (decide (edgeExcess s a edges ≠ 0)) (edgeExcess s a edges) s

/-- R71: classify a reading by its role. R65: the form matches the role. -/
def classify (a : Nat) (role : Role) (data : EntryData) (s : State) : State :=
  match role, data with
  | .main, .analogue v => mainReading a v s
  | .aux, .analogue v => auxReading a v s
  | .supply, .digital st _ => supplyReading a st s
  | .door, .digital st _ => doorReading a st s
  | .detect, .digital _ e => detectReading a e s
  | _, _ => s

end Sys2Proof.Machine
end

