-- ==== Sys2Proof/Machine/Intake.lean ====
section
/-! DEFINITION. The Report Intake (R58 to R62): reservations, the wait list, filling and returning slots, grants, and the Decoder's taking of a
block. -/

namespace Sys2Proof.Machine

/-- Change the intake. -/
def modIntake (f : Intake → Intake) (s : State) : State := { s with intake := f s.intake }

/-- R59: a FREE slot to grant: the lowest (log entry 12). -/
def freeIndex (slots : List IntakeSlot) : Option Nat := slots.findIdx? (fun v => decide (v = .free))

/-- The slot that a line holds a reservation of. -/
def reservedIndex (slots : List IntakeSlot) (l : FieldLine) : Option Nat :=
  slots.findIdx? (fun v => decide (v = .reserved l))

/-- R36, R38: a line's next attempt waits out the guard; no poll is being sent, so the driver is released. -/
def awaitGuard (c : LineController) : LineController := { c with exchange := .guardWait, driverEnable := false }

/-- R38: an attempt ends, or a character arrives: the quiet of the line begins again. -/
def breakQuiet (c : LineController) : LineController := { c with quiet := 0, quietSecond := false }

/-- R38: a second ends. A line that has been quiet since the last one ended has been quiet for a whole second, which is longer than any
guard at any bit rate (R33). -/
def secondQuiet (c : LineController) : LineController :=
  { c with quiet := if c.quietSecond then max c.quiet Config.maxGuard else c.quiet, quietSecond := true }

/-- R48: the line enters POLLING with its reservation, and waits out the guard. -/
def enterPolling (l : FieldLine) (s : State) : State := modLine l (fun c => awaitGuard { c with state := .polling }) s

/-- R59: one FREE slot becomes RESERVED for a line, which enters POLLING. -/
def grantSlot (l : FieldLine) (i : Nat) (s : State) : State :=
  enterPolling l (modIntake (fun k => { k with slots := k.slots.set i (.reserved l) }) s)

/-- R59: a line joins the end of the wait list, which holds it at most once. -/
def joinWaitList (l : FieldLine) (waiting : List FieldLine) : List FieldLine := if l ∈ waiting then waiting else waiting ++ [l]

/-- R48, R59: a line asks for a reservation: granted at once, or it joins the end of the wait list. -/
def askSlot (l : FieldLine) (s : State) : State :=
  match s.intake.waiting, freeIndex s.intake.slots with
  | [], some i => grantSlot l i s
  | _, _ =>
    modLine l (fun c => { c with state := .awaitSlot })
      (modIntake (fun k => { k with waiting := joinWaitList l k.waiting }) s)

/-- R60: a reservation is returned. -/
def returnSlot (l : FieldLine) (s : State) : State :=
  modIntake (fun k => { k with slots := k.slots.map (fun v => if v = .reserved l then .free else v) }) s

/-- R59: a line leaves the wait list. -/
def leaveWaitList (l : FieldLine) (s : State) : State :=
  modIntake (fun k => { k with waiting := k.waiting.filter (fun m => decide (m ≠ l)) }) s

/-- R61: a line fills its RESERVED slot with a block, and the slot joins the end of the decode order. -/
def fillSlot (l : FieldLine) (b : Block) (s : State) : State :=
  match reservedIndex s.intake.slots l with
  | none => s
  | some i => modIntake (fun k => { k with slots := k.slots.set i (.filled b), order := k.order ++ [i] }) s

/-- R60: a grant is due: a slot is FREE and a line waits. -/
def grantDue (k : Intake) : Bool := !k.waiting.isEmpty && (freeIndex k.slots).isSome

/-- R60: one FREE slot is granted to the head of the wait list, which leaves the list. -/
def grantHead (s : State) : State :=
  match s.intake.waiting, freeIndex s.intake.slots with
  | l :: rest, some i => grantSlot l i (modIntake (fun k => { k with waiting := rest }) s)
  | _, _ => s

/-- R60: every grant that is due is made. At most as many as lines wait. -/
def grantAll (s : State) : State :=
  (List.range s.intake.waiting.length).foldl (fun s _ => grantHead s) s

/-! ## The Decoder takes a block (R62) -/

/-- R62: the Decoder is IDLE and a block waits for it, so it takes the block. -/
def takeDue (k : Intake) : Bool := decide (k.decoder = .idle) && !k.order.isEmpty

/-- R62: the IDLE Decoder takes the block at the head of the decode order. -/
def takeBlock (s : State) : State :=
  match s.intake.decoder, s.intake.order with
  | .idle, i :: rest => modIntake (fun k => { k with order := rest, decoder := .decoding i 0 }) s
  | _, _ => s

end Sys2Proof.Machine
end

