-- ==== Sys2Proof/Machine/Decoder.lean ====
section
/-! DEFINITION. The Decoder (R62 to R69): applying one entry, and completing a block. -/

namespace Sys2Proof.Machine

/-- R68: the edge count of a DIGITAL entry of a SNAPSHOT block is taken as 0. -/
def decodedData (snapshot : Bool) (d : EntryData) : EntryData :=
  match d with
  | .digital st e => .digital st (if snapshot then 0 else e)
  | .analogue v => .analogue v

/-- R64: an entry for the daylight source point. -/
def isGatePoint (s : State) (station point : Nat) : Bool := decide (s.gate.source = .point station point)

/-- R64, R29: route an entry to the gate. -/
def routeGate (station : Nat) (e : Entry) (s : State) : State :=
  match e.data with
  | .digital st _ =>
    if isGatePoint s station e.point then setGate (if st = 0 then .day else .night) s else s
  | .analogue _ => s

/-- R64: the entry reaches the gate: a DIGITAL entry for the daylight point. -/
def reachesGate (s : State) (station : Nat) (e : Entry) : Bool :=
  match e.data with
  | .digital _ _ => isGatePoint s station e.point
  | .analogue _ => false

/-- R65: the form of a role is the entry's. -/
def formMatches (role : Role) (d : EntryData) : Bool :=
  match role, d with
  | .main, .analogue _ => true
  | .aux, .analogue _ => true
  | .door, .digital _ _ => true
  | .supply, .digital _ _ => true
  | .detect, .digital _ _ => true
  | _, _ => false

/-- R65: the asset and role that an entry is handed to. -/
def entryTarget (st : Station) (e : Entry) : Option (Nat × Role) :=
  match Table.find st.pointMap e.point with
  | some (a, role) => if formMatches role e.data then some (a, role) else none
  | none => none

/-- R66: an unused entry sets its outstation's mark and the UNMAPPED flag. -/
def markUnmapped (station : Nat) (s : State) : State :=
  raiseUnmapped (modStation station (fun st => { st with unmapped := true }) s)

/-- R63: one entry of a block is applied. -/
def applyOne (b : Block) (e : Entry) (s : State) : State :=
  match stationOf s b.station with
  | none => s
  | some st =>
    if st.state = .silent then s
    else
      let reached := reachesGate s b.station e
      let s := routeGate b.station e s
      match entryTarget st e with
      | some (a, role) => classify a role (decodedData b.snapshot e.data) s
      | none => if reached then s else markUnmapped b.station s

/-- R62: decoding of a slot's block completes: the slot becomes FREE and the Decoder IDLE. -/
def finishBlock (i : Nat) (s : State) : State :=
  modIntake (fun k => { k with slots := k.slots.set i .free, decoder := .idle }) s

/-- R62: the Decoder applies one entry, and completes the block after the last. -/
def decodeStep (s : State) : State :=
  match s.intake.decoder with
  | .idle => s
  | .decoding i n =>
    match s.intake.slots[i]? with
    | some (.filled b) =>
      match b.entries[n]? with
      | none => finishBlock i s
      | some e =>
        let s := applyOne b e s
        if n + 1 < b.entries.length then modIntake (fun k => { k with decoder := .decoding i (n + 1) }) s
        else finishBlock i s
    | _ => s

end Sys2Proof.Machine
end

