-- ==== Sys2Proof/Machine/Clock.lean ====
section
/-! DEFINITION. The Timebase's clock: the phase of the second in progress (R20) and the clock monitor (R21 to R23). Time is counted in
millionths of the nominal crystal period (log entry 7). An exit from QUALIFYING is due at the moment its cause stands; its own command takes it
(QUALIFICATION_COMPLETE, QUALIFICATION_TIMEOUT), and no time passes with an exit due. -/

namespace Sys2Proof.Machine

/-- Change the Timebase. -/
def modTimebase (f : Timebase → Timebase) (s : State) : State := { s with timebase := f s.timebase }

/-- R20: a second, which is 32768 nominal crystal periods. -/
def fullSecond : Nat := 32768 * Config.nominalPeriod

/-- R21: the 2 s that QUALIFYING may last. -/
def qualifyingLimit : Nat := 65536 * Config.nominalPeriod

/-- R21: a period within 3 % of the nominal one. -/
def goodCycle (period : Nat) : Bool := decide (970000 ≤ period) && decide (period ≤ 1030000)

/-! ## Changes of state -/

/-- R21: the monitor changes state; count and elapsed time are discarded, the phase is carried over (R20). -/
def enterMonitor (m : MonitorState) (s : State) : State :=
  modTimebase (fun t => { t with monitor := m, goodCycles := 0, elapsed := 0 }) s

/-- R21, R22, R173: the crystal fails: ON-INTERNAL, with CLOCK-FAIL. -/
def failCrystal (s : State) : State := raiseClockFail (enterMonitor .onInternal s)

/-- R21: the count has reached 2048. -/
def completeQualification (s : State) : State :=
  if s.timebase.monitor = .qualifying ∧ Config.qualifyingCycles ≤ s.timebase.goodCycles then enterMonitor .onCrystal s else s

/-- R22: no edge for 1 ms in ON-CRYSTAL. The cycles that did not arrive are lost, so the phase stays. -/
def loseEdges (s : State) : State := if s.timebase.monitor = .onCrystal then failCrystal s else s

/-- R21: the exit from QUALIFYING that is due, if one is. -/
def takeExit (s : State) : State :=
  if s.timebase.monitor = .qualifying then
    if Config.qualifyingCycles ≤ s.timebase.goodCycles then enterMonitor .onCrystal s
    else if qualifyingLimit ≤ s.timebase.elapsed then failCrystal s
    else s
  else s

/-! ## The passing of time -/

/-- R20: more of the second in progress has elapsed. -/
def addPhase (d : Nat) (s : State) : State := modTimebase (fun t => { t with phase := t.phase + d }) s

/-- R20, R21: some time passes on the selected oscillator. In QUALIFYING it counts toward the 2 s, and where it goes past them the monitor
leaves for ON-INTERNAL and the phase is carried over. -/
def passTime (d : Nat) (s : State) : State :=
  let s := takeExit s
  if s.timebase.monitor = .qualifying then
    if qualifyingLimit < s.timebase.elapsed + d then addPhase d (failCrystal s)
    else modTimebase (fun t => { t with phase := t.phase + d, elapsed := t.elapsed + d }) s
  else addPhase d s

/-- R20: the rest of the second in progress passes, and the next begins. -/
def completeSecond (s : State) : State :=
  modTimebase (fun t => { t with phase := t.phase - fullSecond }) (passTime (fullSecond - s.timebase.phase) s)

/-- Log entry 1: what passes while no command waits: one nominal crystal period, but neither past the end of the second, which SECONDS_TICK
brings, nor past the 2 s of QUALIFYING. -/
def idleTime (t : Timebase) : Nat :=
  let rest := min Config.nominalPeriod (fullSecond - t.phase)
  if t.monitor = .qualifying then min rest (qualifyingLimit - t.elapsed) else rest

/-- Log entry 1: some time passes while no command waits. -/
def passIdle (s : State) : State := passTime (idleTime (takeExit s).timebase) s

/-! ## The monitor's measurements -/

/-- R21: a crystal cycle measured in QUALIFYING is good and counts, or sets the count back to 0. -/
def countCycle (period : Nat) (t : Timebase) : Timebase :=
  { t with goodCycles := if goodCycle period then t.goodCycles + 1 else 0 }

/-- R20, R21: a crystal cycle has ended. In QUALIFYING its period has passed on the internal oscillator, and it is measured unless the 2 s ran
out within it; in ON-CRYSTAL it is one of the 32768 cycles of the second; in ON-INTERNAL the monitor leaves the crystal alone (R23). -/
def measureCycle (period : Nat) (s : State) : State :=
  let s := takeExit s
  match s.timebase.monitor with
  | .qualifying =>
    if qualifyingLimit < s.timebase.elapsed + period then passTime period s
    else modTimebase (countCycle period) (passTime period s)
  | .onCrystal => addPhase Config.nominalPeriod s
  | .onInternal => s

/-- R21: 2 s have passed in QUALIFYING without the count reaching 2048: what is left of them passes, which must lie within the second in
progress, for SECONDS_TICK ends the second. -/
def timeOutQualification (s : State) : State :=
  if s.timebase.monitor = .qualifying ∧ s.timebase.goodCycles < Config.qualifyingCycles ∧
      qualifyingLimit - s.timebase.elapsed ≤ fullSecond - s.timebase.phase then
    failCrystal (addPhase (qualifyingLimit - s.timebase.elapsed) s)
  else s

end Sys2Proof.Machine
end

