-- ==== Sys2Proof/Machine/Polling.lean ====
section
/-! DEFINITION. The Field Line Controllers (R35 to R57): sweeps, visits, polls, the judging of replies, retries, silence and return. -/

namespace Sys2Proof.Machine

/-! ## Visits and sweeps (R47 to R51) -/

/-- R36, R47: an exchange of a visit begins: its first attempt, and the request for a slot (R48). -/
def startExchange (l : FieldLine) (v : Visit) (s : State) : State :=
  askSlot l (modLine l (fun c => { c with visit := some { v with attempt := 1 } }) s)

/-- R49: a visit begins. -/
def beginVisit (l : FieldLine) (station : Nat) (origin : VisitOrigin) (kind : PollKind) (s : State) : State :=
  startExchange l { station, origin, kind } s

/-- R49: the enabled outstations of a line above an address, each with its number. -/
def sweepStations (s : State) (l : FieldLine) (above : Nat) : List (Nat × Station) :=
  s.directory.stations.filter (fun e =>
    decide (e.2.settings.line = l) && e.2.settings.enabled && decide (above < e.2.settings.address))

/-- The outstation of the lowest address. -/
def lowestAddress : List (Nat × Station) → Option (Nat × Station)
  | [] => none
  | e :: es => match lowestAddress es with
    | none => some e
    | some f => if f.2.settings.address < e.2.settings.address then some f else some e

/-- R49: the next outstation of the sweep. -/
def nextStation (s : State) (l : FieldLine) : Option (Nat × Station) :=
  lowestAddress (sweepStations s l (lineOf s l).sweepPos)

/-- R49: the first exchange of a sweep visit is a SNAPSHOT for an UNPOLLED or SILENT outstation. -/
def sweepKind (st : Station) : PollKind := if st.state = .online then .poll else .snapshot

/-- The line rests (R35). -/
def restLine (l : FieldLine) (s : State) : State := modLine l (fun c => { c with state := .resting, visit := none }) s

/-- R51: the line stops at the end of a SINGLE sweep; its interval count is discarded. The between-sweeps mark stays clear (DESIGN CHOICE, log
entry 24). -/
def finishSingle (l : FieldLine) (s : State) : State :=
  modLine l (fun c => { c with state := .stopped, visit := none, interval := 0 }) s

/-- R49 to R51: a visit boundary. `again` starts the next sweep at once, where the rules say so. -/
def boundaryWith (again : State → State) (l : FieldLine) (s : State) : State :=
  let c := lineOf s l
  match c.list with
  | n :: rest => beginVisit l n .list .snapshot (modLine l (fun c => { c with list := rest }) s)
  | [] =>
    if c.between then (if c.interval = 0 then again s else restLine l s)
    else match nextStation s l with
      | some (n, st) =>
        beginVisit l n .sweep (sweepKind st)
          (modLine l (fun c => { c with sweepPos := st.settings.address, visitMark := true }) s)
      | none =>
        if c.settings.mode = .single then finishSingle l s
        else
          let s := modLine l (fun c => { c with between := true }) s
          if c.interval = 0 ∧ c.visitMark = true then again s else restLine l s

/-- R50: a sweep starts and passes a visit boundary. The marks are clear, so this boundary never starts a sweep again. -/
def startSweep (l : FieldLine) (s : State) : State :=
  boundaryWith (restLine l) l
    (modLine l (fun c => { c with sweepPos := 0, visitMark := false, between := false, interval := c.settings.interval }) s)

/-- R49: a visit boundary. -/
def visitBoundary (l : FieldLine) (s : State) : State := boundaryWith (startSweep l) l s

/-- R47: a visit ends. -/
def endVisit (l : FieldLine) (s : State) : State :=
  visitBoundary l (modLine l (fun c => awaitGuard { c with visit := none }) s)

/-! ## Silence and return (R44, R46) -/

/-- R46: what the change of an outstation to SILENT sets off: its incident opens (R126), and the gate loses its source (R29). -/
def becomeSilent (n : Nat) (s : State) : State :=
  let s := openStation n (modStation n (fun st => { st with state := .silent }) s)
  match s.gate.source with
  | .console => s
  | .point m _ => if m = n then clearGate s else s

/-- R46: a visit has failed. -/
def visitFailed (l : FieldLine) (n : Nat) (s : State) : State :=
  match stationOf s n with
  | none => s
  | some st =>
    let s := modStation n (fun st => { st with failures := min 15 (st.failures + 1) }) s
    if (lineOf s l).settings.silence ≤ min 15 (st.failures + 1) ∧ st.state ≠ .silent then becomeSilent n s else s

/-- R44: a visit has succeeded. A SILENT outstation's return is acted on by the Incident Table (R128). -/
def visitSucceeded (n : Nat) (s : State) : State :=
  match stationOf s n with
  | none => s
  | some st =>
    let s := modStation n (fun st => { st with failures := 0, state := .online }) s
    if st.state = .silent then restoreStation n s else s

/-! ## Attempts (R36 to R39, R45) -/

/-- R36: the toggle of the poll of the exchange in progress. -/
def pollToggle (v : Visit) (st : Station) : Bool :=
  match v.kind with
  | .poll => st.toggle
  | .snapshot => v.decided && decide (v.snapshots % 2 = 1)

/-- R36: MORE is set in the SNAPSHOT poll of a continuation exchange. -/
def pollMore (v : Visit) : Bool := decide (v.kind = .snapshot) && v.decided

/-- R36: the poll frame of the exchange in progress. -/
def pollFrame (v : Visit) (st : Station) : List Byte :=
  fieldFrame st.settings.address
    (encControl (match v.kind with
      | .poll => .poll
      | .snapshot => .snapshot) (pollToggle v st) (pollMore v)) []

/-- R36: some bit times of a poll have gone out. With the last stop bit the driver is released, and the reply is awaited. -/
def driveBits (poll : List Byte) (bits : Nat) (c : LineController) : LineController :=
  if bits < (frameBits poll).length then { c with exchange := .sending poll bits, driverEnable := true }
  else { c with exchange := .reply [], driverEnable := false, driven := poll }

/-- R35, R36: the poll that a line has to send: in POLLING, that of its visit in flight. -/
def pollDue (s : State) (l : FieldLine) : Option (List Byte) :=
  if (lineOf s l).state = .polling then
    (lineOf s l).visit.bind (fun v => (stationOf s v.station).map (pollFrame v))
  else none

/-- R38, R36: `bits` more bit times have passed on a line with no attempt in progress, whatever its state. They count toward the guard. A poll
that is to be sent begins once the guard has elapsed, and what is left of the bit times has gone out of it. -/
def guardBits (poll : Option (List Byte)) (bits : Nat) (c : LineController) : LineController :=
  match poll with
  | none => { c with quiet := c.quiet + bits }
  | some poll =>
    if c.settings.guard ≤ c.quiet + bits then
      driveBits poll (bits - (c.settings.guard - c.quiet)) { c with quiet := max c.quiet c.settings.guard }
    else { c with quiet := c.quiet + bits }

/-- R38, R36: `bits` more bit times have passed on a line. A reply that is awaited or received ends by events of its own (R37). -/
def sendPoll (l : FieldLine) (bits : Nat) (s : State) : State :=
  match (lineOf s l).exchange with
  | .guardWait => modLine l (guardBits (pollDue s l) bits) s
  | .sending poll sent => if (lineOf s l).state = .polling then modLine l (driveBits poll (sent + bits)) s else s
  | .reply _ => s

/-- R36, R165: the level of a line's transmit data at the bit time that its poll has reached. -/
def lineLevel (c : LineController) : Bool :=
  match c.exchange with
  | .sending poll bits => transmitLevel poll bits
  | _ => stopLevel

/-- R39, R45: an attempt has failed with a cause: the next attempt, or the exchange is exhausted. -/
def failAttempt (l : FieldLine) (cause : FailureCause) (s : State) : State :=
  match (lineOf s l).visit with
  | none => s
  | some v =>
    let s := modStation v.station (fun st => { st with lastCause := some cause }) s
    let s := modLine l (fun c => awaitGuard (breakQuiet c)) s
    if v.attempt < (lineOf s l).settings.retries + 1 then
      modLine l (fun c => { c with visit := some { v with attempt := v.attempt + 1 } }) s
    else
      let s := returnSlot l s
      endVisit l (if v.decided then s else visitFailed l v.station s)

/-- The line awaits or receives a reply; the characters received so far. -/
def replyChars (c : LineController) : Option (List Byte) :=
  match c.state, c.exchange with
  | .polling, .reply chars => some chars
  | _, _ => none

/-- R39: what a complete reply is judged to be. -/
inductive Judged where
  | failed (cause : FailureCause)
  | report (entries : List Entry) (toggle more : Bool)
  | snapshot (entries : List Entry) (toggle more : Bool)
  | nothing
  deriving DecidableEq, Repr

/-- R39 check 5: the reply kinds allowed for a poll. -/
def replyAllowed (v : Visit) (k : FieldKind) : Bool :=
  match v.kind, k with
  | .poll, _ => true
  | .snapshot, .snapshot => true
  | .snapshot, .nothing => v.decided
  | .snapshot, _ => false

/-- R39 checks 6 and 7, for a REPORT or a SNAPSHOT block. -/
def judgeEntries (chars : List Byte) : Option (List Entry) :=
  if replyLength chars % 4 = 0 ∧ 4 ≤ replyLength chars ∧ replyLength chars ≤ 160 then decodeEntries (replyBody chars) else none

/-- R39 checks 3 to 7. -/
def judgeForm (v : Visit) (chars : List Byte) : Judged :=
  let control := chars.getD 2 0#8
  if chars.getD 0 0#8 ≠ 0xC3#8 then .failed .form
  else match controlKind control with
    | .poll => .failed .form
    | .nothing =>
      if replyAllowed v .nothing ∧ replyLength chars = 0 ∧ controlMore control = false then .nothing else .failed .form
    | .report =>
      if replyAllowed v .report then
        match judgeEntries chars with
        | some es => .report es (controlToggle control) (controlMore control)
        | none => .failed .form
      else .failed .form
    | .snapshot =>
      match judgeEntries chars with
      | some es => .snapshot es (controlToggle control) (controlMore control)
      | none => .failed .form

/-- R39: checks 1 and 2 pass, so the reply is contact with the outstation. -/
def isContact (address : Nat) (chars : List Byte) : Bool := replyCrcGood chars && decide (u8 chars 1 = address)

/-- R39: the checks in order. -/
def judgeReply (v : Visit) (address : Nat) (chars : List Byte) : Judged :=
  if !replyCrcGood chars then .failed .check
  else if u8 chars 1 ≠ address then .failed .address
  else judgeForm v chars

/-- R43: a block is accepted: it fills the slot and its toggle becomes the last accepted toggle; R47: the visit goes on or ends. -/
def acceptBlock (l : FieldLine) (v : Visit) (snapshot : Bool) (es : List Entry) (toggle more : Bool) (s : State) : State :=
  let s := modStation v.station (fun st => { st with toggle := toggle }) s
  let s := fillSlot l { line := l, station := v.station, snapshot, entries := es, arrival := now s } s
  let v := { v with decided := true, accepted := v.accepted + 1, snapshots := v.snapshots + snapshot.toNat }
  if more && decide (v.accepted < Config.maxVisitBlocks) then
    startExchange l { v with kind := if snapshot then .snapshot else .poll }
      (modLine l awaitGuard s)
  else endVisit l s

/-- R43, R44: a good reply ends its exchange. -/
def goodReply (l : FieldLine) (v : Visit) (st : Station) (j : Judged) (s : State) : State :=
  let s := modLine l breakQuiet s
  let s := if v.decided then s else visitSucceeded v.station s
  match j with
  | .report es toggle more =>
    if toggle = st.toggle then endVisit l (returnSlot l s) else acceptBlock l v false es toggle more s
  | .snapshot es toggle more => acceptBlock l v true es toggle more s
  | _ => endVisit l (returnSlot l s)

/-- R39 to R47: a complete reply is judged and acted on. -/
def completeReply (l : FieldLine) (s : State) : State :=
  match replyChars (lineOf s l), (lineOf s l).visit with
  | some chars, some v =>
    if replyHeld chars then
      match stationOf s v.station with
      | none => s
      | some st =>
        let s := if isContact st.settings.address chars then
            modStation v.station (fun st => { st with lastContact := some (now s) }) s
          else s
        match judgeReply v st.settings.address chars with
        | .failed cause => failAttempt l cause s
        | j => goodReply l v st j s
    else s
  | _, _ => s

/-- R37: the reply timeout expires with no character received. -/
def timeoutReply (l : FieldLine) (s : State) : State :=
  match replyChars (lineOf s l) with
  | some [] => failAttempt l .timeout s
  | _ => s

/-- R37: the gap passes inside a reply, or after one whose length character exceeds 240. -/
def gapReply (l : FieldLine) (s : State) : State :=
  match replyChars (lineOf s l) with
  | some (b :: chars) => if replyHeld (b :: chars) then s else failAttempt l .form s
  | _ => s

/-- R37, R38: a character arrives: it begins or extends an awaited reply or is discarded, and the guard starts again. One that arrives before the
end of the poll is discarded, for the reply begins after it. -/
def fieldCharacter (l : FieldLine) (b : Byte) (s : State) : State :=
  let c := lineOf s l
  match replyChars c with
  | some chars =>
    if replyHeld chars || replyTooLong chars then modLine l breakQuiet s
    else modLine l (fun c => { breakQuiet c with exchange := .reply (chars ++ [b]) }) s
  | none => modLine l breakQuiet s

/-! ## Stopping (R55) -/

/-- R38, R55: an attempt that is in progress is abandoned, and ends here (log entry 8); the quiet of a guard wait goes on. -/
def abandonAttempt (c : LineController) : LineController := if c.exchange = .guardWait then c else breakQuiet c

/-- R55: a line that is not STOPPED is stopped; a poll being sent is cut short and the driver released. An attempt in progress ends with it, so
the guard is measured from here (R38, log entry 8); bit times already counted in a guard wait keep their number (DESIGN CHOICE, log entry
23). -/
def stopLine (l : FieldLine) (s : State) : State :=
  if (lineOf s l).state = .stopped then s
  else
    modLine l (fun c => { awaitGuard (abandonAttempt c) with state := .stopped, visit := none, list := [] })
      (leaveWaitList l (returnSlot l s))

end Sys2Proof.Machine
end

