-- ==== Sys2Proof/Machine/Tick.lean ====
section
/-! DEFINITION. The seconds tick (R19): what each block does with it, and its completion. SECONDS_TICK offers the tick; a block
whose part of it brings nothing to its end takes it there, and the parts that bring something to its end stay due for their own commands
(CONFIRM_TERM_REACHED, SETTLING_END, ...). Any other command first completes the tick (log entry 3). -/

namespace Sys2Proof.Machine

/-- Change what of the tick is due. -/
def modTick (f : TickDue → TickDue) (s : State) : State := { s with tick := f s.tick }

/-! ## The gate (R28) -/

/-- R28: the gate takes a tick: the count falls by 1, and at 0 the flag clears. -/
def gateTick (s : State) : State :=
  if s.gate.settling then
    { s with gate := { s.gate with count := s.gate.count - 1, settling := decide (1 < s.gate.count) } }
  else s

/-- R28: the tick due to the gate is taken. -/
def takeGate (s : State) : State :=
  if s.tick.gate then modTick (fun t => { t with gate := false }) (gateTick s) else s

/-! ## The Incident Table (R131, R132, R136) -/

/-- The feeders 1 to 64. -/
def feederNumbers : List Nat := (List.range 64).map (· + 1)

/-- R132: the RELEASING feeders whose release timer the next tick brings to 0. -/
def expiringFeeders (s : State) : List Nat :=
  feederNumbers.filter (fun f =>
    decide ((slotOf s (feederSlot f)).state = .releasing) && decide ((slotOf s (feederSlot f)).release ≤ 1))

/-- R131: a RELEASING slot's release timer falls by 1, where that does not bring it to 0. -/
def countRelease (s : State) (f : Nat) : State :=
  if (slotOf s (feederSlot f)).state = .releasing ∧ 1 < (slotOf s (feederSlot f)).release then
    modSlot (feederSlot f) (fun v => { v with release := v.release - 1 }) s
  else s

/-- R132, R134: the tick due to a feeder's slot is taken: a slot that is no longer RELEASING is left as it is. -/
def takeRelease (f : Nat) (s : State) : State :=
  if f ∈ s.tick.release then
    let s := modTick (fun t => { t with release := t.release.filter (fun g => decide (g ≠ f)) }) s
    if (slotOf s (feederSlot f)).state = .releasing then expireRelease f s else s
  else s

/-- R136: the rotation due is made. -/
def takeRotation (s : State) : State :=
  if s.tick.rotation then rotateStorms (modTick (fun t => { t with rotation := false }) s) else s

/-! ## The Qualifier (R95) -/

/-- The record at a key would be brought to an end of some kind by a tick taken now. -/
def recordEnds (s : State) (key : Nat) : Bool :=
  match recordOf s key with
  | none => false
  | some r => !isHeld s key && (endingOf r).any

/-- R95: records take the tick in the order of the list, up to the first that the tick brings to an end; its key is where the qualifier
stands. -/
def qualifyUpTo : List Nat → State → State
  | [], s => modTick (fun t => { t with qualifier := none }) s
  | key :: keys, s =>
    if recordEnds s key then modTick (fun t => { t with qualifier := some key }) s
    else qualifyUpTo keys (recordTickDefault s key)

/-- The keys of the records that have still to take the tick. -/
def dueKeys (s : State) : List Nat :=
  match s.tick.qualifier with
  | none => []
  | some k => (Table.keys s.faults).filter (fun key => decide (k ≤ key))

/-- R95: the qualifier goes on to the next record that the tick brings to an end. -/
def qualifyOn (s : State) : State :=
  match s.tick.qualifier with
  | none => s
  | some _ => qualifyUpTo (dueKeys s) s

/-- R95: the tick due to the qualifier is taken whole. -/
def takeQualifier (s : State) : State :=
  modTick (fun t => { t with qualifier := none }) ((dueKeys s).foldl recordTickDefault s)

/-- The record at which the qualifier stands, when the tick brings it to an end that `p` picks out. -/
def standsAt (s : State) (key : Nat) (p : Ending → Bool) : Bool :=
  decide (s.tick.qualifier = some key) &&
    match recordOf s key with
    | none => false
    | some r => !isHeld s key && p (endingOf r)

/-- A record's own command (R96, R99, R102, R109): when the qualifier comes to that record at this tick, and the tick brings it to the
end that `p` picks out, the record takes the tick whole, in the order of escalation and clearing that `order` gives, and the qualifier goes
on. -/
def recordEvent (asset : Nat) (cond : Condition) (p : Ending → Bool) (order : Record → Bool) (s : State) : State :=
  let key := recordKey asset cond
  let t := qualifyOn s
  if standsAt t key p then
    qualifyOn (modTick (fun d => { d with qualifier := some (key + 1) }) (recordTickBy order key t))
  else s

/-! ## Lines and store (R50, R183) -/

/-- R50: the next tick leaves the interval count of a RESTING line at 0. -/
def sweepNext (c : LineController) : Bool := decide (c.state = .resting) && decide (c.interval ≤ 1)

/-- R50: a line's interval count falls by 1, down to 0, in every state but STOPPED. -/
def countInterval (l : FieldLine) (s : State) : State :=
  if (lineOf s l).state = .stopped then s else modLine l (fun c => { c with interval := c.interval - 1 }) s

/-- R50: the tick due to a line is taken. -/
def takeLine (l : FieldLine) (s : State) : State :=
  if l ∈ s.tick.lines then
    let s := modTick (fun t => { t with lines := t.lines.filter (fun m => decide (m ≠ l)) }) s
    if sweepNext (lineOf s l) then startSweep l (countInterval l s) else countInterval l s
  else s

/-- R59: the lines whose requests for a slot may be made together with line l's at a tick, in line order, up to l. -/
def linesUpTo (l : FieldLine) : List FieldLine := fieldLines.takeWhile (fun m => decide (m ≠ l)) ++ [l]

/-- R50, R59: the tick due to a line is taken, after the tick due to the lines before it, for requests that one tick makes join the wait list in
line order. -/
def takeLines (l : FieldLine) (s : State) : State :=
  if l ∈ s.tick.lines then (linesUpTo l).foldl (fun s m => takeLine m s) s else s

/-- R183: the save is abandoned. -/
def abandonSave (s : State) : State :=
  raiseSaveFailed { s with store := { s.store with saving := none } }

/-- R183: the store takes a tick. -/
def saveTick (s : State) : State :=
  match s.store.saving with
  | none => s
  | some v =>
    if v.count ≤ 1 then abandonSave s
    else { s with store := { s.store with saving := some { v with count := v.count - 1 } } }

/-- R183: the tick due to the store is taken. -/
def takeSave (s : State) : State :=
  if s.tick.save then saveTick (modTick (fun t => { t with save := false }) s) else s

/-! ## Completing a tick -/

/-- The parts of the gate and of the Incident Table that are due. -/
def takeGateAndIncidents (s : State) : State :=
  takeGate (takeRotation (s.tick.release.foldl (fun s f => takeRelease f s) s))

/-- Every part of the tick that is due is taken. -/
def completeTick (s : State) : State :=
  let s := if s.tick.qualifierFirst then takeGateAndIncidents (takeQualifier s) else takeQualifier (takeGateAndIncidents s)
  modTick (fun _ => {}) (takeSave (fieldLines.foldl (fun s l => takeLine l s) s))

/-- No part of a tick is due, no grant is, and no block waits for an IDLE Decoder. -/
def settled (s : State) : Bool := decide (s.tick = {}) && !grantDue s.intake && !takeDue s.intake

/-- What is due is done before a command that is not itself a part of it: the tick is completed (R19), the grants are made (R60), and the IDLE
Decoder takes the block at the head of the decode order (R62). -/
def settle (s : State) : State :=
  if settled s then s else takeBlock (grantAll (if s.tick = {} then s else completeTick s))

/-! ## Offering a tick (R19) -/

/-- What of a tick stays due: the parts that bring something to its end. `t` is the state at the new run-second. -/
def dueOf (qualifierFirst : Bool) (t : State) : TickDue :=
  { gate := t.gate.settling && decide (t.gate.count ≤ 1)
    rotation := decide (now t % 30 = 0)
    release := expiringFeeders t
    qualifier := some 0
    qualifierFirst := qualifierFirst
    lines := fieldLines.filter (fun l => sweepNext (lineOf t l))
    save := match t.store.saving with
      | some v => decide (v.count ≤ 1)
      | none => false }

/-- The lines that take the tick at once. -/
def countLine (s : State) (l : FieldLine) : State := if l ∈ s.tick.lines then s else countInterval l s

/-- The blocks but the qualifier take a tick that brings them to no end. -/
def countBlocks (s : State) : State :=
  let s := if s.tick.gate then s else gateTick s
  let s := feederNumbers.foldl countRelease s
  let s := fieldLines.foldl countLine s
  if s.tick.save then s else saveTick s

/-- The qualifier waits for the gate and the Incident Table. -/
def qualifierWaits (d : TickDue) : Bool :=
  !d.qualifierFirst && (d.gate || d.rotation || !d.release.isEmpty)

/-- The parts of a tick have all been taken, but for the note of the order. -/
def clearIfDone (s : State) : State :=
  if s.tick = { qualifierFirst := s.tick.qualifierFirst } then modTick (fun _ => {}) s else s

/-- R38: a second ends on every line. -/
def quietLines (s : State) : State := fieldLines.foldl (fun s l => modLine l secondQuiet s) s

/-- R19, R20: the rest of the second passes; the run-second increments by 1 and the tick is offered to every block; at 4294967295 it holds and
there is no tick. -/
def offerTick (qualifierFirst : Bool) (s : State) : State :=
  let s := quietLines (completeSecond s)
  if Config.maxRunSecond ≤ now s then s
  else
    let s := modTimebase (fun t => { t with runSecond := t.runSecond + 1 }) s
    let s := modTick (fun _ => dueOf qualifierFirst s) s
    let s := countBlocks s
    clearIfDone (if qualifierWaits s.tick then s else qualifyOn s)

end Sys2Proof.Machine
end

