-- ==== Sys2Proof/Machine/Link.lean ====
section
/-! DEFINITION. The Console Link (R165 to R172): the receiver, the request intake, serving a request, and the transmitter. -/

namespace Sys2Proof.Machine

/-- Change the link. -/
def modLink (f : Link → Link) (s : State) : State := { s with link := f s.link }

/-! ## Receiver (R166, R167) -/

/-- The receiver returns to HUNT. -/
def huntAgain (s : State) : State := modLink (fun k => { k with receiver := none }) s

/-- R166: a frame being received is discarded with LINK-FAULT. -/
def dropFrame (s : State) : State := raiseLinkFault (huntAgain s)

/-- R168: a frame that has passed its CRC check is offered to the request intake. -/
def offerFrame (f : Frame) (s : State) : State :=
  if s.link.requests.length < Config.requestFrames then modLink (fun k => { k with requests := k.requests ++ [f] }) s
  else raiseOverrun s

/-- R167: a complete frame is checked. -/
def checkFrame (s : State) : State :=
  match s.link.receiver with
  | none => s
  | some chars =>
    if rxComplete chars then
      if rxGood chars then offerFrame (rxFrame chars) (huntAgain s) else dropFrame s
    else s

/-- R166: the two length bytes have just arrived and the body length they give is above 1000. -/
def rxTooLong (chars : List Byte) : Bool := decide (chars.length = 3) && decide (Config.maxBody < rxLength chars)

/-- R166: a character is examined in HUNT. -/
def huntCharacter (b : Byte) (s : State) : State :=
  if b = 0xA6#8 then modLink (fun k => { k with receiver := some [b] }) s else s

/-- R166: a character arrives on RXD. A frame that already holds all its bytes is checked first, and the character examined in HUNT
(log entry 17). -/
def consoleCharacter (b : Byte) (s : State) : State :=
  match s.link.receiver with
  | none => huntCharacter b s
  | some chars =>
    if rxComplete chars then huntCharacter b (checkFrame s)
    else if rxTooLong (chars ++ [b]) then dropFrame s
    else modLink (fun k => { k with receiver := some (chars ++ [b]) }) s

/-- R166: the gap inside a frame expires; a frame that holds all its bytes has no gap to wait for. -/
def consoleGap (s : State) : State :=
  match s.link.receiver with
  | none => s
  | some chars => if rxComplete chars then s else dropFrame s

/-! ## Serving (R169, R170) -/

/-- A request's answer: its result, the reply data for OK, and what follows the reply (R172). -/
structure Served where
  result : Result
  data : List Byte := []
  after : AfterReply := .nothing
  deriving DecidableEq, Repr

/-- R170: the answer OK without reply data. -/
def ok : Served := { result := .ok }

/-- R170: a refusal. -/
def refuse (r : Result) : Served := { result := r }

/-- R169, R171: a request may be served: nothing is being sent, nothing follows the reply just sent, and no notice is pending. -/
def mayServe (s : State) : Bool :=
  decide (s.link.transmitter = .idle) && decide (s.link.after = .nothing) && decide (s.dispatch.notice = none)

/-- R170: the reply frame of a request. -/
def replyFrame (f : Frame) (a : Served) : Frame :=
  { kind := f.kind, tag := f.tag, body := a.result.code :: (if a.result = .ok then a.data else []) }

/-- R171: the transmitter sends a reply at once. -/
def sendReply (f : Frame) (a : Served) (s : State) : State :=
  modLink (fun k => { k with transmitter := .reply (replyFrame f a) (frameChars (replyFrame f a)) a.after }) s

/-- R170: a refused request changes nothing but for its reply. -/
def reply (f : Frame) (o : State × Served) : State := sendReply f o.2 o.1

/-- R169, R10: the checks that come before the owner's: body length, then BUSY while saving. -/
def precheck (k : RequestKind) (f : Frame) (s : State) : Option Result :=
  if f.body.length ≠ k.length then some .badLength
  else if k.busySaving && s.store.saving.isSome then some .busy
  else none

/-- R169: serve the oldest frame of the request intake, when it may be served and is of this kind; else nothing happens. -/
def serve (code : Nat) (owner : List Byte → State → State × Served) (s : State) : State :=
  let s := settle s
  match requestKind code, s.link.requests with
  | some k, f :: _ =>
    if mayServe s ∧ f.kind.toNat = code then
      match precheck k f s with
      | some r => reply f (s, refuse r)
      | none => reply f (owner f.body s)
    else s
  | _, _ => s

/-- R169 step 1: the oldest frame's kind is no request kind. -/
def serveUnknown (s : State) : State :=
  let s := settle s
  match s.link.requests with
  | f :: _ => if mayServe s ∧ requestKind f.kind.toNat = none then reply f (s, refuse .badKind) else s
  | [] => s

/-! ## Transmitter (R171, R172) -/

/-- R171: the characters of the frame being sent. -/
def sendingChars : Transmitter → List Byte
  | .idle => []
  | .reply _ chars _ => chars
  | .notice _ chars => chars

/-- R165: the level of TXD at a bit time since the start of the frame being sent. The bits are not timed one by one (log entry 26). -/
def txdLevel (k : Link) (bit : Nat) : Bool := transmitLevel (sendingChars k.transmitter) bit

/-- R178: the summary of an item in 14 bytes. -/
def encSummary (x : Summary) : List Byte :=
  (match x.item.thing with
    | .record key => enc8 0 ++ encRecordKey key
    | .incident n => enc8 1 ++ encSlotKey n) ++
  encEnum reasons x.item.reason ++ enc8 x.item.rankClass ++ enc32 x.item.orderTime ++
  (match x.detail with
    | .record kind recurrence escalated => encEnum assetKinds kind ++ enc8 recurrence ++ encBool escalated
    | .incident type members => encEnum slotTypes type ++ enc16 members) ++ [0#8]

/-- R178: the HEAD notice frame: kind HEAD, tag 0, a presence byte and the summary. -/
def noticeFrame (x : Option Summary) : Frame := { kind := headKind, tag := 0#8, body := encOpt 14 encSummary x }

/-- R171, R159: the idle transmitter takes the pending notice. -/
def sendNotice (s : State) : State :=
  match s.dispatch.notice with
  | none => s
  | some x =>
    if s.link.transmitter = .idle ∧ s.link.after = .nothing then
      modLink (fun k => { k with transmitter := .notice (noticeFrame x) (frameChars (noticeFrame x)) })
        { s with dispatch := { s.dispatch with notice := none } }
    else s

/-- R171: the last stop bit has gone: a reply's frame leaves the request intake, and the transmitter is IDLE. -/
def finishSending (s : State) : State :=
  match s.link.transmitter with
  | .idle => s
  | .notice _ _ => modLink (fun k => { k with transmitter := .idle }) s
  | .reply _ _ after => modLink (fun k => { k with transmitter := .idle, requests := k.requests.drop 1, after := after }) s

/-- R172: transmitter and receiver change to the stored rate; a frame being received is discarded. -/
def switchRate (s : State) : State :=
  if s.link.after = .rateSwitch then
    let s := modLink (fun k => { k with lineRate := k.rate, after := .nothing }) s
    match s.link.receiver with
    | none => s
    | some chars => if rxComplete chars then s else dropFrame s
  else s

end Sys2Proof.Machine
end

