-- ==== Sys2Proof/Machine/Resets.lean ====
section
/-! DEFINITION. The Settings Store and the four kinds of reset (R181 to R186, R18, R26, R32, R57, R70, R118, R144, R164, R175). -/

namespace Sys2Proof.Machine

/-! ## The settings image (R181, R182) -/

/-- R181: the configuration as it stands. -/
def capture (s : State) : Configuration :=
  { stations := s.directory.stations.map (fun e => (e.1, e.2.settings))
    assets := s.directory.assets.map (fun e => (e.1, e.2.settings, e.2.reference))
    profiles := s.directory.profiles
    areas := s.directory.areas
    lineA := s.lines.a.settings
    lineB := s.lines.b.settings
    lineC := s.lines.c.settings
    lineD := s.lines.d.settings
    gateSource := s.gate.source
    settleTime := s.gate.settleTime
    alert := s.dispatch.alertSettings
    notices := s.dispatch.notices
    rate := s.link.rate }

/-- R181: the image is valid: the mark is set and the CRC over the contents equals the stored one. -/
def Image.valid (i : Image) : Bool := i.mark && decide (crc16 (Config.imageBytes i.contents) = i.crc)

/-- R182: the validity mark of the stored image is cleared. -/
def clearMark (s : State) : State :=
  { s with store := { s.store with image := s.store.image.map (fun i => { i with mark := false }) } }

/-- R183: the write finishes: contents and CRC are stored, the mark is set, and the store is IDLE. -/
def completeSave (s : State) : State :=
  match s.store.saving with
  | none => s
  | some v =>
    { s with store := {
        saving := none
        image := some { contents := v.captured, crc := crc16 (Config.imageBytes v.captured), mark := true } } }

/-- R184 step 2: the configuration that start-up loads: the valid image's, else the factory values. -/
def startConfiguration (st : Store) : Configuration :=
  match st.image with
  | some i => if i.valid then i.contents else {}
  | none => {}

/-! ## Loading a configuration (R2, R184) -/

/-- R4: the roles that an asset has, each with its point. -/
def rolePoints (p : RolePoints) : List (Nat × Role) :=
  (p.main.map (·, Role.main)).toList ++ (p.aux.map (·, Role.aux)).toList ++ (p.door.map (·, Role.door)).toList ++
    (p.supply.map (·, Role.supply)).toList ++ (p.detect.map (·, Role.detect)).toList

/-- R2: the point map of an outstation filled from one asset's roles. -/
def fillPoints (a : Nat) (p : RolePoints) (m : Table (Nat × Role)) : Table (Nat × Role) :=
  (rolePoints p).foldl (fun m e => Table.insert m e.1 (a, e.2)) m

/-- R2, R181: the point map of an outstation, rebuilt from the assets' roles. -/
def rebuildMap (assets : Table (AssetSettings × Nat)) (n : Nat) : Table (Nat × Role) :=
  assets.foldl (fun m e => if e.2.1.station = n then fillPoints e.1 e.2.1.points m else m) []

/-- R184 step 2: the Asset Directory of a configuration: dynamic and working fields at their reset values. -/
def loadDirectory (c : Configuration) : Directory :=
  { stations := c.stations.map (fun e => (e.1, { settings := e.2, pointMap := rebuildMap c.assets e.1 }))
    assets := c.assets.map (fun e => (e.1, { settings := e.2.1, reference := e.2.2 }))
    profiles := c.profiles
    areas := c.areas }

/-- R57: a line controller after a reset, with its settings. -/
def resetLine (v : LineSettings) : LineController := { settings := v }

/-- R57: the line controllers of a configuration. -/
def loadLines (c : Configuration) : Lines :=
  { a := resetLine c.lineA, b := resetLine c.lineB, c := resetLine c.lineC, d := resetLine c.lineD }

/-- R164: the Dispatch Queue and ALERT after a reset, with the settings in force. -/
def loadDispatch (v : AlertSettings) (notices : Bool) : Dispatch :=
  { notices := notices, alertSettings := v, pinHigh := !v.activeHigh }

/-! ## Auto-start (R56) -/

/-- R56: a line whose auto-start setting is on starts a sweep. -/
def autoStartLine (s : State) (l : FieldLine) : State :=
  if (lineOf s l).settings.autoStart then startSweep l s else s

/-- R56: the lines start, in line order. -/
def autoStart (s : State) : State := fieldLines.foldl autoStartLine s

/-! ## The resets -/

/-- R184: power-on and the RESET pin. The stored image stays as it is; a save in progress is abandoned, and its image invalid (R183). -/
def powerOnState (s : State) : State :=
  let c := startConfiguration s.store
  { gate := { source := c.gateSource, settleTime := c.settleTime }
    directory := loadDirectory c
    lines := loadLines c
    dispatch := loadDispatch c.alert c.notices
    link := { rate := c.rate, lineRate := c.rate }
    store := { saving := none, image := s.store.image }
    pending := s.pending }

/-- R184: start-up: power-on values, the configuration, then auto-start. -/
def startUp (s : State) : State := autoStart (powerOnState s)

/-- R18, R57, R70: an outstation after RESTART: settings and point map kept, dynamic fields at their reset values. -/
def resetStation (st : Station) : Station := { settings := st.settings, pointMap := st.pointMap }

/-- R18: an asset after RESTART: settings and reference kept, working values absent. -/
def resetAsset (x : Asset) : Asset := { settings := x.settings, reference := x.reference }

/-- R175: the link after RESTART or FACTORY-DEFAULTS: CLOCK-FAIL is kept. -/
def resetLink (k : Link) (rate : ConsoleRate) : Link :=
  { flags := { clockFail := k.flags.clockFail }, rate := rate, lineRate := rate }

/-- R185: the state after RESTART, before auto-start. -/
def restartState (s : State) : State :=
  { timebase := s.timebase
    gate := s.gate
    directory := {
      stations := s.directory.stations.map (fun e => (e.1, resetStation e.2))
      assets := s.directory.assets.map (fun e => (e.1, resetAsset e.2))
      profiles := s.directory.profiles
      areas := s.directory.areas }
    lines := {
      a := resetLine s.lines.a.settings
      b := resetLine s.lines.b.settings
      c := resetLine s.lines.c.settings
      d := resetLine s.lines.d.settings }
    dispatch := { loadDispatch s.dispatch.alertSettings s.dispatch.notices with
      notice := if s.dispatch.notices then some none else none }
    link := resetLink s.link s.link.rate
    store := s.store
    pending := s.pending }

/-- R186: the state after FACTORY-DEFAULTS, before auto-start (which starts no line: the factory auto-start is off). -/
def factoryState (s : State) : State :=
  { timebase := s.timebase
    gate := { s.gate with source := .console, settleTime := 600 }
    link := resetLink s.link .c115200
    store := s.store
    pending := s.pending }

/-- R185: the reset that RESTART asked for, once its reply has been sent. -/
def restartNow (s : State) : State :=
  if s.link.after = .restart then autoStart (restartState s) else s

/-- R186: the reset that FACTORY-DEFAULTS asked for, once its reply has been sent. -/
def factoryNow (s : State) : State :=
  if s.link.after = .factoryDefaults then autoStart (factoryState s) else s

end Sys2Proof.Machine
end

