-- ==== Sys2Proof/Machine/DirectoryRequests.lean ====
section
/-! DEFINITION. The owners' answers to the Asset Directory's requests (R10 to R17) and to RELEARN (R87). Body length and BUSY while
saving have been checked by the link (R169, R10 orders 1 and 2). -/

namespace Sys2Proof.Machine

/-- The first check that applies gives the refusal. -/
def firstRefusal : List (Bool × Result) → Option Result
  | [] => none
  | (c, r) :: cs => if c then some r else firstRefusal cs

/-- Answer a request: the first refusal that applies, which changes nothing, or its effect. -/
def answer (checks : List (Bool × Result)) (s : State) (effect : State × Served) : State × Served :=
  match firstRefusal checks with
  | some r => (s, refuse r)
  | none => effect

/-- n lies in a range. -/
def inRange (lo hi n : Nat) : Bool := decide (lo ≤ n) && decide (n ≤ hi)

/-- The line is STOPPED. -/
def lineStopped (s : State) (l : FieldLine) : Bool := decide ((lineOf s l).state = .stopped)

/-- The outstation's line is running. -/
def stationRuns (s : State) (n : Nat) : Bool :=
  match stationOf s n with
  | some st => !lineStopped s st.settings.line
  | none => false

/-! ## DEFINE-STATION and REMOVE-STATION (R11, R12) -/

/-- R11, R1: the fields of DEFINE-STATION, none when one is outside its range. -/
def parseStation (b : List Byte) : Option (Nat × StationSettings) :=
  match decEnum fieldLines (u8 b 1), decEnum booleans (u8 b 4) with
  | some line, some enabled =>
    if inRange 1 Config.maxStation (u8 b 0) && inRange 1 Config.maxAddress (u8 b 2) && inRange 1 4 (u8 b 3) then
      some (u8 b 0, { line, address := u8 b 2, priority := u8 b 3, enabled })
    else none
  | _, _ => none

/-- R11: another defined outstation has the same line and address. -/
def addressTaken (s : State) (n : Nat) (v : StationSettings) : Bool :=
  s.directory.stations.any (fun e =>
    decide (e.1 ≠ n) && decide (e.2.settings.line = v.line) && decide (e.2.settings.address = v.address))

/-- Write a slot of the outstation table. -/
def putStation (n : Nat) (st : Station) (s : State) : State :=
  { s with directory := { s.directory with stations := Table.insert s.directory.stations n st } }

/-- R11: a defined outstation under new settings: the dynamic fields are kept unless line or address change. -/
def redefined (st : Station) (v : StationSettings) : Station :=
  if v.line = st.settings.line ∧ v.address = st.settings.address then { st with settings := v }
  else { settings := v, pointMap := st.pointMap }

/-- R11: the effect of a taken DEFINE-STATION. -/
def applyStation (n : Nat) (v : StationSettings) (s : State) : State :=
  match stationOf s n with
  | none => putStation n { settings := v } s
  | some st =>
    let new := redefined st v
    let s := putStation n new s
    let s := if st.state = .silent ∧ new.state ≠ .silent then restoreStation n s else s
    if v.priority ≠ st.settings.priority then queueAction [.incident (stationSlot n)] s else s

/-- R11: DEFINE-STATION. -/
def ownDefineStation (b : List Byte) (s : State) : State × Served :=
  match parseStation b with
  | none => (s, refuse .badValue)
  | some (n, v) =>
    answer [(!lineStopped s v.line || stationRuns s n, .busy), (addressTaken s n v, .inUse)] s (applyStation n v s, ok)

/-- R12: the daylight source is POINT and names the outstation. -/
def isGateStation (s : State) (n : Nat) : Bool :=
  match s.gate.source with
  | .point m _ => decide (m = n)
  | .console => false

/-- R12: the effect of a taken REMOVE-STATION. -/
def dropStation (n : Nat) (s : State) : State :=
  let s := { s with directory := { s.directory with stations := Table.erase s.directory.stations n } }
  queueAction [.incident (stationSlot n)] (freeSlot (stationSlot n) s)

/-- R12: REMOVE-STATION. -/
def ownRemoveStation (b : List Byte) (s : State) : State × Served :=
  let n := u8 b 0
  if !inRange 1 Config.maxStation n then (s, refuse .badValue)
  else match stationOf s n with
    | none => (s, refuse .notFound)
    | some st =>
      answer [(!lineStopped s st.settings.line, .busy), (!st.pointMap.isEmpty || isGateStation s n, .inUse)] s (dropStation n s, ok)

/-! ## DEFINE-ASSET and REMOVE-ASSET (R13, R14) -/

/-- R176: a role point is 0 to 63, or 0xFF for a role the asset does not have; other values are refused. -/
def parsePoint (n : Nat) : Option (Option Nat) :=
  if n ≤ Config.maxPoint then some (some n) else if n = 0xFF then some none else none

/-- R4: the roles are those the kind must and may have. -/
def rolesFit (kind : AssetKind) (p : RolePoints) : Bool :=
  match kind with
  | .cabinet => p.main.isNone && p.aux.isNone && p.detect.isNone && (p.door.isSome || p.supply.isSome)
  | .lampCircuit => p.main.isSome && p.aux.isNone && p.door.isNone && p.supply.isNone && p.detect.isNone
  | .loop => p.main.isSome && p.aux.isNone && p.door.isNone && p.supply.isNone
  | .sign => p.main.isSome && p.supply.isNone && p.detect.isNone

/-- R4: two roles of one asset do not name the same point. -/
def pointsDistinct (p : RolePoints) : Bool := decide ((rolePoints p).map Prod.fst).Nodup

/-- R3: the kind-dependent settings lie in the ranges of the kind. -/
def kindFits (v : AssetSettings) : Bool :=
  (match v.kind with
    | .cabinet | .lampCircuit => true
    | .loop | .sign => decide (v.feeder = 0)) &&
  (match v.kind with
    | .lampCircuit => inRange 1 60 v.lampCount
    | _ => decide (v.lampCount = 0)) &&
  (match v.kind with
    | .loop => true
    | _ => !v.doubling)

/-- R3, R4: settings that an asset may hold. -/
def assetFits (v : AssetSettings) : Bool :=
  inRange 1 Config.maxStation v.station && inRange 0 15 v.profile && inRange 1 4 v.priority && inRange 0 Config.maxArea v.area &&
    inRange 0 Config.maxArea v.feeder && kindFits v && rolesFit v.kind v.points && pointsDistinct v.points &&
    decide (v.label.length ≤ 12) && v.label.all (fun c => inRange 0x20 0x7E c.toNat)

/-- R13: the points of a DEFINE-ASSET body. -/
def parsePoints (b : List Byte) : Option RolePoints :=
  match parsePoint (u8 b 4), parsePoint (u8 b 5), parsePoint (u8 b 6), parsePoint (u8 b 7), parsePoint (u8 b 8) with
  | some main, some aux, some door, some supply, some detect => some { main, aux, door, supply, detect }
  | _, _, _, _, _ => none

/-- R13: the fields of DEFINE-ASSET, none when one is outside its range or breaks a role or kind rule. -/
def parseAsset (b : List Byte) : Option (Nat × AssetSettings) :=
  match decEnum assetKinds (u8 b 2), parsePoints b, decEnum booleans (u8 b 14) with
  | some kind, some points, some doubling =>
    let v : AssetSettings := {
      kind, station := u8 b 3, points, profile := u8 b 9, priority := u8 b 10, area := u8 b 11, feeder := u8 b 12,
      lampCount := u8 b 13, doubling, label := (b.drop 16).take (u8 b 15) }
    if inRange 0 Config.maxAsset (u16 b 0) && inRange 0 12 (u8 b 15) && assetFits v then some (u16 b 0, v) else none
  | _, _, _ => none

/-- R14 step 4: the feeder that an asset supplies, 0 for none. -/
def suppliedFeeder (v : AssetSettings) : Nat := if v.kind = .cabinet then v.feeder else 0

/-- R13: a given point is held in the outstation's point map by another asset. -/
def pointTaken (st : Station) (a : Nat) (p : RolePoints) : Bool :=
  (rolePoints p).any (fun e => match Table.find st.pointMap e.1 with
    | some (other, _) => decide (other ≠ a)
    | none => false)

/-- R13: another defined CABINET supplies the feeder. -/
def feederTaken (s : State) (a : Nat) (v : AssetSettings) : Bool :=
  decide (suppliedFeeder v ≠ 0) &&
    s.directory.assets.any (fun e => decide (e.1 ≠ a) && decide (suppliedFeeder e.2.settings = suppliedFeeder v))

/-- The keys of an asset's records. -/
def assetRecords (s : State) (a : Nat) : List Nat := recordKeys s (fun key _ => decide (keyAsset key = a))

/-- R14: the entry of an asset becomes undefined and its point map entries empty. -/
def eraseAsset (a : Nat) (v : AssetSettings) (s : State) : State :=
  modStation v.station (fun st => { st with pointMap := st.pointMap.filter (fun e => decide (e.2.1 ≠ a)) })
    { s with directory := { s.directory with assets := Table.erase s.directory.assets a } }

/-- R14 step 4: the incident of the feeder that the asset supplies is freed, its members released. -/
def freeSupplied (f : Nat) (s : State) : State :=
  if f = 0 then s else freeSlot (feederSlot f) (releaseAll (feederSlot f) s)

/-- R14: an asset is removed with its records, its memberships and the incident of the feeder it supplies. -/
def dropAsset (a : Nat) (v : AssetSettings) (s : State) : State :=
  let keys := assetRecords s a
  let f := suppliedFeeder v
  let things := keys.flatMap (removalThings s) ++ (if f = 0 then [] else slotThings s (feederSlot f))
  queueAction things (eraseAsset a v (freeSupplied f (keys.foldl (fun s key => takeRecord key s) s)))

/-- R13: the new definition is written: settings, classifier fields at their values at definition, point map entries. -/
def writeAsset (a : Nat) (v : AssetSettings) (s : State) : State :=
  modStation v.station (fun st => { st with pointMap := fillPoints a v.points st.pointMap })
    { s with directory := { s.directory with assets := Table.insert s.directory.assets a { settings := v } } }

/-- R13: the effect of a taken DEFINE-ASSET. -/
def applyAsset (a : Nat) (v : AssetSettings) (s : State) : State :=
  match assetOf s a with
  | none => writeAsset a v s
  | some x => writeAsset a v (dropAsset a x.settings s)

/-- R13: the line of an asset's present outstation is running. -/
def assetRuns (s : State) (a : Nat) : Bool :=
  match assetOf s a with
  | some x => stationRuns s x.settings.station
  | none => false

/-- R13: DEFINE-ASSET. -/
def ownDefineAsset (b : List Byte) (s : State) : State × Served :=
  match parseAsset b with
  | none => (s, refuse .badValue)
  | some (a, v) =>
    match stationOf s v.station with
    | none => (s, refuse .notFound)
    | some st =>
      answer [(stationRuns s v.station || assetRuns s a, .busy), (pointTaken st a v.points || feederTaken s a v, .inUse)] s
        (applyAsset a v s, ok)

/-- R14: REMOVE-ASSET. -/
def ownRemoveAsset (b : List Byte) (s : State) : State × Served :=
  let a := u16 b 0
  if !inRange 0 Config.maxAsset a then (s, refuse .badValue)
  else match assetOf s a with
    | none => (s, refuse .notFound)
    | some x => answer [(assetRuns s a, .busy)] s (dropAsset a x.settings s, ok)

/-! ## SET-PROFILE and SET-AREA (R15, R16) -/

/-- R7: the ranges and orderings of a profile. -/
def profileFits (p : Profile) : Bool :=
  inRange 1 3600 p.confirmFail && inRange 1 65535 p.confirmBand && inRange 1 3600 p.clearTime && inRange 2 255 p.chatterCount &&
    inRange 10 3600 p.chatterWindow && inRange 0 15 p.edgeAllowance &&
    (decide (p.escalateAfter = 0) || inRange 60 65535 p.escalateAfter) &&
    decide (-10000 ≤ p.failLow) && decide (p.failLow ≤ -2) && decide (p.failLow + 1 ≤ p.low) && decide (p.low ≤ -1) &&
    decide (1 ≤ p.high) && decide (p.high ≤ 32766) && decide (p.high + 1 ≤ p.failHigh) && decide (p.failHigh ≤ 32767) &&
    inRange 2 8 p.trackShift && inRange 1 65535 p.learnFloor && inRange 0 65535 p.dayLimit && inRange 1 65535 p.pixelLimit &&
    inRange 10 3600 p.releaseWait

/-- R15, R177: the fields of SET-PROFILE, none when one breaks its range or an ordering. -/
def parseProfile (b : List Byte) : Option (Nat × Profile) :=
  match decEnum booleans (u8 b 13), decEnum booleans (u8 b 14) with
  | some immediate, some autoClose =>
    let p : Profile := {
      confirmFail := u16 b 1, confirmBand := u16 b 3, clearTime := u16 b 5, chatterCount := u8 b 7, chatterWindow := u16 b 8,
      edgeAllowance := u8 b 10, escalateAfter := u16 b 11, immediate, autoClose, failLow := s16 b 15, low := s16 b 17,
      high := s16 b 19, failHigh := s16 b 21, trackShift := u8 b 23, learnFloor := u16 b 24, dayLimit := u16 b 26,
      pixelLimit := u16 b 28, releaseWait := u16 b 30 }
    if inRange 0 15 (u8 b 0) && profileFits p then some (u8 b 0, p) else none
  | _, _ => none

/-- R15, R112: the effect of a taken SET-PROFILE. -/
def applyProfile (n : Nat) (p : Profile) (s : State) : State :=
  let s := { s with directory := { s.directory with profiles := s.directory.profiles.set n p } }
  if p.immediate then takeUpProfile n s else s

/-- R15: SET-PROFILE. -/
def ownSetProfile (b : List Byte) (s : State) : State × Served :=
  match parseProfile b with
  | none => (s, refuse .badValue)
  | some (n, p) => (applyProfile n p s, ok)

/-- R16, R9: the fields of SET-AREA, none when one is outside its range. -/
def parseArea (b : List Byte) : Option (Nat × AreaSettings) :=
  let v : AreaSettings := { stormThreshold := u16 b 1, calmLevel := u16 b 3, stormClass := u8 b 5 }
  if inRange 1 Config.maxArea (u8 b 0) && inRange 1 4 v.stormClass &&
      (if v.stormThreshold = 0 then decide (v.calmLevel = 0)
        else inRange 3 500 v.stormThreshold && inRange 0 (v.stormThreshold - 1) v.calmLevel) then
    some (u8 b 0, v)
  else none

/-- R16: the effect of a taken SET-AREA: the storm class acts at once. -/
def applyArea (a : Nat) (v : AreaSettings) (s : State) : State :=
  queueAction [.incident (areaSlot a)]
    { s with directory := { s.directory with areas := Table.store {} s.directory.areas a v } }

/-- R16: SET-AREA. -/
def ownSetArea (b : List Byte) (s : State) : State × Served :=
  match parseArea b with
  | none => (s, refuse .badValue)
  | some (a, v) => (applyArea a v s, ok)

/-! ## READ-STATION, READ-ASSET, READ-PROFILE (R17) -/

/-- R176: a point map entry: asset and role. -/
def encMapEntry (e : Nat × Role) : List Byte := enc16 e.1 ++ encEnum roles e.2

/-- R17: settings, point map and dynamic fields of an outstation. -/
def encStation (st : Station) : List Byte :=
  encEnum fieldLines st.settings.line ++ enc8 st.settings.address ++ enc8 st.settings.priority ++ encBool st.settings.enabled ++
    (List.range 64).flatMap (fun p => encOpt 3 encMapEntry (Table.find st.pointMap p)) ++
    encEnum stationStates st.state ++ enc8 st.failures ++ encBool st.toggle ++ encOpt 1 (encEnum failureCauses) st.lastCause ++
    encOpt 4 enc32 st.lastContact ++ encBool st.unmapped

/-- R17: READ-STATION. It clears the unmapped-entry mark after reporting it. -/
def ownReadStation (b : List Byte) (s : State) : State × Served :=
  let n := u8 b 0
  if !inRange 1 Config.maxStation n then (s, refuse .badValue)
  else match stationOf s n with
    | none => (s, refuse .notFound)
    | some st => (modStation n (fun st => { st with unmapped := false }) s, { result := .ok, data := encStation st })

/-- A role's point, or the absent mark 0xFF (log entry 10). -/
def encPoint (p : Option Nat) : List Byte := enc8 (p.getD 0xFF)

/-- R176: a label: its length and 12 characters, those past the length 0. -/
def encLabel (label : List Byte) : List Byte :=
  enc8 label.length ++ (label ++ List.replicate (12 - label.length) 0#8)

/-- R17: settings and classifier fields of an asset. -/
def encAsset (x : Asset) : List Byte :=
  let v := x.settings
  encEnum assetKinds v.kind ++ enc8 v.station ++ encPoint v.points.main ++ encPoint v.points.aux ++ encPoint v.points.door ++
    encPoint v.points.supply ++ encPoint v.points.detect ++ enc8 v.profile ++ enc8 v.priority ++ enc8 v.area ++ enc8 v.feeder ++
    enc8 v.lampCount ++ encBool v.doubling ++ encLabel v.label ++
    enc16 x.reference ++ encOpt 2 enc16 x.lastMain ++ encOpt 1 (encEnum bands) x.lastBand ++ encOpt 2 enc16 x.lastAux ++
    encOpt 1 enc8 x.lampsOut

/-- R17: READ-ASSET. -/
def ownReadAsset (b : List Byte) (s : State) : State × Served :=
  let a := u16 b 0
  if !inRange 0 Config.maxAsset a then (s, refuse .badValue)
  else match assetOf s a with
    | none => (s, refuse .notFound)
    | some x => (s, { result := .ok, data := encAsset x })

/-- R17, R177: the 18 fields of a profile. -/
def encProfile (p : Profile) : List Byte :=
  enc16 p.confirmFail ++ enc16 p.confirmBand ++ enc16 p.clearTime ++ enc8 p.chatterCount ++ enc16 p.chatterWindow ++
    enc8 p.edgeAllowance ++ enc16 p.escalateAfter ++ encBool p.immediate ++ encBool p.autoClose ++ encS16 p.failLow ++
    encS16 p.low ++ encS16 p.high ++ encS16 p.failHigh ++ enc8 p.trackShift ++ enc16 p.learnFloor ++ enc16 p.dayLimit ++
    enc16 p.pixelLimit ++ enc16 p.releaseWait

/-- R17: READ-PROFILE. -/
def ownReadProfile (b : List Byte) (s : State) : State × Served :=
  if !inRange 0 15 (u8 b 0) then (s, refuse .badValue)
  else (s, { result := .ok, data := encProfile (profileOf s (u8 b 0)) })

/-! ## RELEARN (R87) -/

/-- R87: RELEARN. -/
def ownRelearn (b : List Byte) (s : State) : State × Served :=
  let a := u16 b 0
  if !inRange 0 Config.maxAsset a then (s, refuse .badValue)
  else match assetOf s a with
    | none => (s, refuse .notFound)
    | some x =>
      answer [(decide (x.settings.kind = .cabinet), .state)] s (modAsset a (fun x => { x with reference := 0 }) s, ok)

end Sys2Proof.Machine
end

