-- ==== Sys2Proof/Machine/ReadRequests.lean ====
section
/-! DEFINITION. The reads of the fault table and the Incident Table (R116, R117, R142, R143) and BREAK-OUT (R141). -/

namespace Sys2Proof.Machine

/-! ## Encodings that several replies share (R176) -/

/-- R176: a list is a count byte followed by its entries. -/
def encList {α : Type} (enc : α → List Byte) (xs : List α) : List Byte := enc8 xs.length ++ xs.flatMap enc

/-- R176: a standing is the standing byte followed by the reason as an optional field. -/
def encStanding : Standing → List Byte
  | .none => enc8 0 ++ encOpt 1 (encEnum reasons) none
  | .queued r => enc8 1 ++ encOpt 1 (encEnum reasons) (some r)
  | .waiting r => enc8 2 ++ encOpt 1 (encEnum reasons) (some r)

/-- The modes in the order of R176. -/
def modes : List Mode := [.persist, .gated, .count]

/-- The holds in the order of R176. -/
def holds : List HeldBy := [.notHeld, .silent, .gate]

/-- The first entries of a listing, and the one after the last listed. -/
def page {α : Type} (n : Nat) (xs : List α) : List α × Option α := (xs.take n, xs[n]?)

/-! ## READ-RECORD (R116) -/

/-- R176: the terms of a record as six fields. -/
def encTerms (t : Terms) : List Byte :=
  (match t.confirm with
    | .time v => encOpt 2 enc16 (some v) ++ encOpt 1 enc8 none ++ encOpt 2 enc16 none
    | .count n w => encOpt 2 enc16 none ++ encOpt 1 enc8 (some n) ++ encOpt 2 enc16 (some w)) ++
  enc16 t.clearTime ++ enc16 t.escalateAfter ++ encBool t.autoClose

/-- R91: a trail entry. -/
def encTrailEntry (e : TrailEntry) : List Byte := encEnum recordStates e.entered ++ enc32 e.time

/-- R116: every field of R89, in its order. -/
def encRecord (r : Record) : List Byte :=
  encEnum recordStates r.state ++ encBool r.observed ++ encBool r.seen ++ encBool r.escalated ++ enc8 r.recurrence ++
    encOpt 1 enc8 r.incident ++ enc32 r.created ++ encOpt 4 enc32 r.confirmed ++ encOpt 4 enc32 r.restored ++ enc16 r.timer ++
    enc16 r.evidence ++ encOpt 2 enc16 r.windowLeft ++ enc16 r.escTimer ++ encTerms r.terms ++ encOpt 1 enc8 r.lampsOut ++
    encOpt 1 (encEnum qualities) r.quality ++ encList encTrailEntry r.trail

/-- R116: the values derived at that moment. -/
def encRecordView (s : State) (key : Nat) (r : Record) : List Byte :=
  encEnum modes (conditionMode (keyCondition key)) ++ enc8 (recordPriority s key r) ++
    encEnum holds (heldBy s (keyAsset key) (keyCondition key)) ++ encStanding (standingOf s (.record key))

/-- R116: READ-RECORD. -/
def ownReadRecord (b : List Byte) (s : State) : State × Served :=
  match bodyKey b 0 with
  | none => (s, refuse .badValue)
  | some key =>
    match recordOf s key with
    | none => (s, refuse .notFound)
    | some r => (s, { result := .ok, data := encRecord r ++ encRecordView s key r })

/-! ## LIST-RECORDS (R117) -/

/-- R117: the kind of the asset of a record. A record's asset is defined (R88). -/
def recordKind (s : State) (key : Nat) : Option AssetKind := (assetOf s (keyAsset key)).map (fun x => x.settings.kind)

/-- The position of a record state in R176. -/
def recordStateIndex (st : RecordState) : Nat := recordStates.findIdx (fun w => decide (w = st))

/-- The position of an asset kind in R176. -/
def assetKindIndex (k : AssetKind) : Nat := assetKinds.findIdx (fun w => decide (w = k))

/-- R117: the selected records, lowest keys first. -/
def selectRecords (s : State) (start states kinds : Nat) : Table Record :=
  s.faults.filter (fun e => decide (start ≤ e.1) && setHas states (recordStateIndex e.2.state) &&
    match recordKind s e.1 with
    | some k => setHas kinds (assetKindIndex k)
    | none => false)

/-- R117: what the listing gives of a record. -/
def encListedRecord (s : State) (e : Nat × Record) : List Byte :=
  encRecordKey e.1 ++ encEnum recordStates e.2.state ++ encBool e.2.observed ++ encBool e.2.seen ++ encBool e.2.escalated ++
    enc8 e.2.recurrence ++ encOpt 1 enc8 e.2.incident ++ encOpt 4 enc32 e.2.confirmed ++ encOpt 4 enc32 e.2.restored ++
    enc8 (recordPriority s e.1 e.2) ++ encOpt 1 enc8 e.2.lampsOut

/-- R117: LIST-RECORDS. -/
def ownListRecords (b : List Byte) (s : State) : State × Served :=
  match bodyKey b 0 with
  | none => (s, refuse .badValue)
  | some start =>
    if setValid (u8 b 3) 0 3 && setValid (u8 b 4) 0 3 then
      let p := page 12 (selectRecords s start (u8 b 3) (u8 b 4))
      (s, { result := .ok, data := encList (encListedRecord s) p.1 ++ encOpt 3 encRecordKey (p.2.map Prod.fst) })
    else (s, refuse .badValue)

/-! ## READ-INCIDENT (R142) -/

/-- A slot number in its range. -/
def slotInRange (n : Nat) : Bool := inRange 1 248 n

/-- A field that only some slot types hold. -/
def forType {α : Type} (t u : SlotType) (v : α) : Option α := if t = u then some v else none

/-- R142: the effective priority of a slot, absent when it is FREE. -/
def slotPriorityShown (s : State) (n : Nat) : Option Nat :=
  if (slotOf s n).state = .free then none else some (slotPriority s n)

/-- R142: the storm window and sum of an area. -/
def encStorm (w : List Nat) : List Byte := w.flatMap enc8 ++ enc16 w.sum

/-- R142: slot number, type, cause number, and the fields of R119 in its order. -/
def encSlot (n : Nat) (v : Slot) : List Byte :=
  let t := slotType n
  enc8 n ++ encEnum slotTypes t ++ enc8 (slotCause n) ++
    encEnum slotStates v.state ++ encBool v.seen ++ enc16 v.members ++ encOpt 4 enc32 v.openedAt ++ encOpt 4 enc32 v.restoredAt ++
    encOpt 1 encBool (forType t .area v.absorbing) ++ encOpt 2 enc16 (forType t .feeder v.release) ++
    encOpt 3 encRecordKey (if t = .feeder then v.root else none) ++ encOpt 2 enc16 (forType t .feeder v.leftBehind)

/-- R142: the values derived at that moment. -/
def encSlotView (s : State) (n : Nat) : List Byte :=
  encOpt 1 enc8 (slotPriorityShown s n) ++ encStanding (standingOf s (.incident n)) ++
    encOpt 12 encStorm (forType (slotType n) .area (windowOf s (slotCause n)))

/-- R142: the member keys from a start key on. -/
def membersFrom (s : State) (n start : Nat) : List Nat := (memberKeys s n).filter (fun key => decide (start ≤ key))

/-- R142: READ-INCIDENT. -/
def ownReadIncident (b : List Byte) (s : State) : State × Served :=
  let n := u8 b 0
  match slotInRange n, bodyKey b 1 with
  | true, some start =>
    let p := page 24 (membersFrom s n start)
    (s, { result := .ok
          data := encSlot n (slotOf s n) ++ encSlotView s n ++ encList encRecordKey p.1 ++ encOpt 3 encRecordKey p.2 })
  | _, _ => (s, refuse .badValue)

/-! ## LIST-INCIDENTS (R143) -/

/-- The position of a slot state in R176. -/
def slotStateIndex (st : SlotState) : Nat := slotStates.findIdx (fun w => decide (w = st))

/-- R143: the selected slots, ascending. A FREE slot is never selected, and the others are those the table lists. -/
def selectSlots (s : State) (start states : Nat) : Table Slot :=
  s.incidents.slots.filter (fun e => decide (start ≤ e.1) && decide (e.2.state ≠ .free) && setHas states (slotStateIndex e.2.state))

/-- R143: what the listing gives of a slot. -/
def encListedSlot (s : State) (e : Nat × Slot) : List Byte :=
  enc8 e.1 ++ encEnum slotTypes (slotType e.1) ++ encEnum slotStates e.2.state ++ encBool e.2.seen ++ encBool e.2.absorbing ++
    enc16 e.2.members ++ enc16 e.2.leftBehind ++ encOpt 4 enc32 e.2.openedAt ++ encOpt 4 enc32 e.2.restoredAt ++
    enc8 (slotPriority s e.1)

/-- R143, R177: LIST-INCIDENTS. The state set names OPEN, RELEASING and RESTORED at positions 1 to 3. -/
def ownListIncidents (b : List Byte) (s : State) : State × Served :=
  if slotInRange (u8 b 0) && setValid (u8 b 1) 1 3 then
    let p := page 16 (selectSlots s (u8 b 0) (u8 b 1))
    (s, { result := .ok, data := encList (encListedSlot s) p.1 ++ encOpt 1 enc8 (p.2.map Prod.fst) })
  else (s, refuse .badValue)

/-! ## BREAK-OUT (R141) -/

/-- R141: BREAK-OUT. -/
def ownBreakOut (b : List Byte) (s : State) : State × Served :=
  let n := u8 b 0
  if !slotInRange n then (s, refuse .badValue)
  else answer [(decide (slotType n = .outstation), .state), (decide ((slotOf s n).state = .free), .state)] s (breakSlot n s, ok)

end Sys2Proof.Machine
end

