-- ==== Sys2Proof/Machine/QueueRequests.lean ====
section
/-! DEFINITION. The requests of the Dispatch Queue and the ALERT output (R154 to R158, R160, R163), and the flash pattern (R162). -/

namespace Sys2Proof.Machine

/-- Change the Dispatch Queue and the ALERT output. -/
def modDispatch (f : Dispatch → Dispatch) (s : State) : State := { s with dispatch := f s.dispatch }

/-! ## PEEK and LIST-QUEUE (R157, R158) -/

/-- R157: the head's summary. -/
def headSummary (s : State) : Option Summary := (headOf s).map (summaryOf s)

/-- R157, R178: PEEK. -/
def ownPeek (_ : List Byte) (s : State) : State × Served :=
  (s, { result := .ok
        data := enc8 s.dispatch.queue.length ++ enc16 (waitingItems s).length ++ encOpt 14 encSummary (headSummary s) })

/-- R158: the queued items from a position on, each with its position. -/
def itemsFrom (s : State) (start : Nat) : List (Nat × Item) :=
  ((List.range s.dispatch.queue.length).map (· + 1)).zip s.dispatch.queue |>.drop (start - 1)

/-- R178: an entry of LIST-QUEUE. -/
def encListedItem (s : State) (e : Nat × Item) : List Byte := enc8 e.1 ++ encSummary (summaryOf s e.2)

/-- R158: LIST-QUEUE. -/
def ownListQueue (b : List Byte) (s : State) : State × Served :=
  if inRange 1 Config.maxQueue (u8 b 0) then
    let p := page 16 (itemsFrom s (u8 b 0))
    (s, { result := .ok
          data := enc8 s.dispatch.queue.length ++ encList (encListedItem s) p.1 ++ encOpt 1 enc8 (p.2.map Prod.fst) })
  else (s, refuse .badValue)

/-! ## ACKNOWLEDGE (R154, R155) -/

/-- R176: the thing that an item type and a key name, none when either is outside its values. -/
def bodyThing (b : List Byte) : Option Thing :=
  if u8 b 0 = 0 then (bodyKey b 1).map .record
  else if u8 b 0 = 1 then
    if slotInRange (u8 b 1) ∧ u8 b 2 = 0 ∧ u8 b 3 = 0 then some (.incident (u8 b 1)) else none
  else none

/-- R154 order 3: the thing does not exist. -/
def thingMissing (s : State) : Thing → Bool
  | .record key => (recordOf s key).isNone
  | .incident n => decide ((slotOf s n).state = .free)

/-- R154 order 4: the thing is a record that is a member of an incident. -/
def thingIsMember (s : State) : Thing → Bool
  | .record key => ((recordOf s key).bind Record.incident).isSome
  | .incident _ => false

/-- R155: the effect of a taken ACKNOWLEDGE. -/
def acknowledge (t : Thing) (r : Reason) (s : State) : State :=
  match t, r with
  | .record key, .new => queueAction [t] (modRecord key (fun r => { r with seen := true }) s)
  | .record key, .restored => removeRecord key s
  | .incident n, .new => queueAction (slotThings s n) (markSlotSeen n s)
  | .incident n, .restored => queueAction [t] (freeSlot n s)

/-- R154: ACKNOWLEDGE, by the order of its checks. A key whose record was removed and created anew names the new record, which is answered as it stands
(DESIGN CHOICE, log entry 27). -/
def ownAcknowledge (b : List Byte) (s : State) : State × Served :=
  match bodyThing b, decEnum reasons (u8 b 4) with
  | some t, some r =>
    answer [(thingMissing s t, .notFound), (thingIsMember s t, .state), (decide (needOf s t ≠ some r), .state)] s
      (acknowledge t r s, ok)
  | _, _ => (s, refuse .badValue)

/-! ## SET-ALERT and the flash pattern (R163, R162) -/

/-- R163: the fields of SET-ALERT, none when one is outside its range. -/
def parseAlert (b : List Byte) : Option AlertSettings :=
  match decEnum booleans (u8 b 0) with
  | some activeHigh =>
    if inRange 200 5000 (u16 b 1) && inRange 100 5000 (u16 b 3) then
      some { activeHigh, period := u16 b 1, onTime := u16 b 3 }
    else none
  | none => none

/-- R163: the effect of a taken SET-ALERT: outside FLASH the new level is driven at once. -/
def applyAlert (v : AlertSettings) (d : Dispatch) : Dispatch := driveAlert d.alert { d with alertSettings := v }

/-- R163: SET-ALERT. -/
def ownSetAlert (b : List Byte) (s : State) : State × Served :=
  match parseAlert b with
  | none => (s, refuse .badValue)
  | some v => (modDispatch (applyAlert v) s, ok)

/-- R162, R163: a new period begins with its on-phase, on the settings as they stand. -/
def newPeriod (d : Dispatch) : Dispatch :=
  { d with pinHigh := d.alertSettings.activeHigh, flash := some { onPhase := true, settings := d.alertSettings } }

/-- R162: the on-phase or the period of the pattern ends. An on-phase whose on-time is at or above the period ends with the period. -/
def flashStep (d : Dispatch) : Dispatch :=
  match d.alert, d.flash with
  | .flash, some p =>
    if p.onPhase && decide (p.settings.onTime < p.settings.period) then
      { d with pinHigh := !p.settings.activeHigh, flash := some { p with onPhase := false } }
    else newPeriod d
  | _, _ => d

/-! ## SET-NOTICES (R160) -/

/-- R160: the effect of a taken SET-NOTICES. -/
def applyNotices (v : Bool) (s : State) : State :=
  modDispatch (fun d => { d with
    notices := v
    notice := if v = d.notices then d.notice else if v then some (headSummary s) else none }) s

/-- R160: SET-NOTICES. -/
def ownSetNotices (b : List Byte) (s : State) : State × Served :=
  match decEnum booleans (u8 b 0) with
  | none => (s, refuse .badValue)
  | some v => (applyNotices v s, ok)

end Sys2Proof.Machine
end

