-- ==== Sys2Proof/Machine/LinkRequests.lean ====
section
/-! DEFINITION. The requests of the Console Link and the Settings Store (R172, R174, R182, R185, R186). -/

namespace Sys2Proof.Machine

/-! ## READ-STATUS (R174) -/

/-- R174: the gate source, its outstation and its point. -/
def encSource : GateSource → List Byte
  | .console => enc8 0 ++ enc8 0 ++ enc8 0
  | .point n p => enc8 1 ++ enc8 n ++ enc8 p

/-- R174, R58: the FREE, RESERVED and FILLED slot counts. -/
def encSlotCounts (slots : List IntakeSlot) : List Byte :=
  enc8 (slots.countP (fun v => decide (v = .free))) ++
    enc8 (slots.countP (fun v => match v with
      | .reserved _ => true
      | _ => false)) ++
    enc8 (slots.countP (fun v => match v with
      | .filled _ => true
      | _ => false))

/-- R174: the arrival run-second of the oldest slot in the decode order. -/
def oldestArrival (k : Intake) : Option Seconds :=
  match k.order with
  | [] => none
  | i :: _ => match k.slots[i]? with
    | some (.filled b) => some b.arrival
    | _ => none

/-- R174: the number of open incidents. -/
def openIncidents (s : State) : Nat :=
  s.incidents.slots.countP (fun e => decide (e.2.state = .opened) || decide (e.2.state = .releasing))

/-- R174: the layout of the reply data from offset 1 on. -/
def encStatus (s : State) : List Byte :=
  enc8 (stickyByte s.link.flags) ++ enc32 (now s) ++ enc32 (wallTime s) ++ encEnum qualities (quality s) ++
    encEnum monitorStates s.timebase.monitor ++ encEnum gateValues s.gate.value ++ encBool s.gate.settling ++ enc16 s.gate.count ++
    encSource s.gate.source ++ enc16 s.gate.settleTime ++ fieldLines.flatMap (fun l => encEnum lineStates (lineOf s l).state) ++
    encSlotCounts s.intake.slots ++ encOpt 4 enc32 (oldestArrival s.intake) ++ enc16 s.faults.length ++
    enc8 s.dispatch.queue.length ++ enc16 (waitingItems s).length ++ enc8 (openIncidents s) ++ encBool s.store.saving.isSome

/-- R174: READ-STATUS reports the sticky flags and clears them. -/
def ownReadStatus (_ : List Byte) (s : State) : State × Served :=
  (modFlags (fun _ => {}) s, { result := .ok, data := encStatus s })

/-! ## SET-CONSOLE-RATE (R172) -/

/-- R172: SET-CONSOLE-RATE. The line changes rate once the reply has been sent; the rate already in force changes nothing. -/
def ownSetConsoleRate (b : List Byte) (s : State) : State × Served :=
  match decEnum consoleRates (u8 b 0) with
  | none => (s, refuse .badValue)
  | some r =>
    if r = s.link.rate then (s, ok)
    else (modLink (fun k => { k with rate := r }) s, { result := .ok, after := .rateSwitch })

/-! ## SAVE-SETTINGS, RESTART, FACTORY-DEFAULTS (R182, R185, R186) -/

/-- R182: a save is taken. -/
def startSave (s : State) : State :=
  let t := clearMark s
  { t with store := { t.store with saving := some { count := 5, captured := capture s } } }

/-- R182: SAVE-SETTINGS. It has been refused with BUSY in SAVING. -/
def ownSaveSettings (_ : List Byte) (s : State) : State × Served := (startSave s, ok)

/-- R185: RESTART. The reset comes when the reply has been sent. -/
def ownRestart (_ : List Byte) (s : State) : State × Served := (s, { result := .ok, after := .restart })

/-- R186: FACTORY-DEFAULTS. The reset comes when the reply has been sent. -/
def ownFactoryDefaults (_ : List Byte) (s : State) : State × Served := (s, { result := .ok, after := .factoryDefaults })

end Sys2Proof.Machine
end

