-- ==== Sys2Proof/Machine/TimeRequests.lean ====
section
/-! DEFINITION. The requests of the Timebase and the Daylight Gate (R23, R24, R30, R31). -/

namespace Sys2Proof.Machine

/-! ## SET-TIME and CLOCK-RETRY (R24, R23) -/

/-- R24: the wall offset that makes the wall time w at a run-second. -/
def offsetFor (w t : Nat) : Nat := (w + Config.wallModulus - t) % Config.wallModulus

/-- R24: SET-TIME. -/
def ownSetTime (b : List Byte) (s : State) : State × Served :=
  (modTimebase (fun t => { t with wallOffset := offsetFor (u32 b 0) t.runSecond, timeSet := true }) s, ok)

/-- R23: CLOCK-RETRY. -/
def ownClockRetry (_ : List Byte) (s : State) : State × Served :=
  answer [(decide (s.timebase.monitor ≠ .onInternal), .state)] s (enterMonitor .qualifying s, ok)

/-! ## SET-DAYLIGHT-SOURCE and SET-DAYLIGHT (R31, R30) -/

/-- R31: the source and settle time of SET-DAYLIGHT-SOURCE, none when one is outside its values. -/
def parseSource (b : List Byte) : Option (GateSource × Nat) :=
  if !inRange 0 3600 (u16 b 3) then none
  else if u8 b 0 = 0 then
    if u8 b 1 = 0 ∧ u8 b 2 = 0 then some (.console, u16 b 3) else none
  else if u8 b 0 = 1 then
    if inRange 1 Config.maxStation (u8 b 1) && inRange 0 Config.maxPoint (u8 b 2) then some (.point (u8 b 1) (u8 b 2), u16 b 3)
    else none
  else none

/-- R31: the source names an outstation that is not defined. -/
def sourceMissing (s : State) (v : GateSource) : Bool :=
  match v with
  | .console => false
  | .point n _ => (stationOf s n).isNone

/-- R31: the effect of a taken SET-DAYLIGHT-SOURCE. -/
def applySource (v : GateSource) (settle : Nat) (s : State) : State :=
  let t := { s with gate := { s.gate with source := v, settleTime := settle } }
  if s.gate.source = v then t else clearGate t

/-- R31: SET-DAYLIGHT-SOURCE. -/
def ownSetDaylightSource (b : List Byte) (s : State) : State × Served :=
  match parseSource b with
  | none => (s, refuse .badValue)
  | some (v, settle) => answer [(sourceMissing s v, .notFound)] s (applySource v settle s, ok)

/-- R30: SET-DAYLIGHT. The value UNKNOWN is refused. -/
def ownSetDaylight (b : List Byte) (s : State) : State × Served :=
  match decEnum gateValues (u8 b 0) with
  | some .day => answer [(decide (s.gate.source ≠ .console), .state)] s (setGate .day s, ok)
  | some .night => answer [(decide (s.gate.source ≠ .console), .state)] s (setGate .night s, ok)
  | _ => (s, refuse .badValue)

end Sys2Proof.Machine
end

