-- ==== Sys2Proof/Machine/EventMeanings.lean ====
section
/-! DEFINITION. Meanings: the events of the clock monitor, the ALERT pattern, the field lines, the intake and the Decoder, and the console
link. An event whose cause does not stand leaves the part as it is (log entry 2). -/

namespace Sys2Proof.Machine

/-! ## Clock monitor -/

/-- QUALIFICATION_COMPLETE (R21). -/
def execQualificationComplete (s : State) : Answer := .next (completeQualification (settle s))

/-- QUALIFICATION_TIMEOUT (R21). -/
def execQualificationTimeout (s : State) : Answer := .next (timeOutQualification (settle s))

/-- CRYSTAL_EDGE_LOSS (R22). -/
def execCrystalEdgeLoss (s : State) : Answer := .next (loseEdges (settle s))

/-- CRYSTAL_CYCLE_MEASURED (R21). -/
def execCrystalCycleMeasured (period : Nat) (s : State) : Answer := .next (measureCycle period (settle s))

/-! ## ALERT -/

/-- FLASH_PHASE (R162). -/
def execFlashPhase (s : State) : Answer := .next (modDispatch flashStep (settle s))

/-! ## Field lines -/

/-- POLL_SEND (R36, R38). -/
def execPollSend (line : FieldLine) (bits : Nat) (s : State) : Answer := .next (sendPoll line bits (settle s))

/-- REPLY_TIMEOUT (R37). -/
def execReplyTimeout (line : FieldLine) (s : State) : Answer := .next (timeoutReply line (settle s))

/-- INCOMPLETE_REPLY_GAP (R37). -/
def execIncompleteReplyGap (line : FieldLine) (s : State) : Answer := .next (gapReply line (settle s))

/-- REPLY_COMPLETE (R39). -/
def execReplyComplete (line : FieldLine) (s : State) : Answer := .next (completeReply line (settle s))

/-- FIELD_CHARACTER_RECEIVED (R37, R38). -/
def execFieldCharacterReceived (line : FieldLine) (byte : Byte) (s : State) : Answer := .next (fieldCharacter line byte (settle s))

/-! ## Intake and Decoder -/

/-- SLOT_GRANT (R60). -/
def execSlotGrant (s : State) : Answer := .next (grantHead s)

/-- DECODER_TAKE_BLOCK (R62): a part of what is due before another command. -/
def execDecoderTakeBlock (s : State) : Answer := .next (settle s)

/-- APPLY_ENTRY (R63). -/
def execApplyEntry (s : State) : Answer := .next (decodeStep (settle s))

/-! ## Console link -/

/-- CONSOLE_CHARACTER_RECEIVED (R166). -/
def execConsoleCharacterReceived (byte : Byte) (s : State) : Answer := .next (consoleCharacter byte (settle s))

/-- CONSOLE_FRAME_COMPLETE (R167). -/
def execConsoleFrameComplete (s : State) : Answer := .next (checkFrame (settle s))

/-- CONSOLE_GAP_EXPIRY (R166). -/
def execConsoleGapExpiry (s : State) : Answer := .next (consoleGap (settle s))

/-- UNKNOWN_KIND_REQUEST (R169 step 1). -/
def execUnknownKindRequest (s : State) : Answer := .next (serveUnknown s)

/-- HEAD_NOTICE_SEND (R171, R159). -/
def execHeadNoticeSend (s : State) : Answer := .next (sendNotice (settle s))

/-- TRANSMIT_COMPLETE (R171). -/
def execTransmitComplete (s : State) : Answer := .next (finishSending (settle s))

/-- CONSOLE_RATE_SWITCH (R172). -/
def execConsoleRateSwitch (s : State) : Answer := .next (switchRate (settle s))

end Sys2Proof.Machine
end

