-- ==== Sys2Proof/Machine/LineRequests.lean ====
section
/-! DEFINITION. The requests of the Field Line Controllers (R34, R52 to R55). -/

namespace Sys2Proof.Machine

/-- R176: the field line at an offset of a body. -/
def lineAt (b : List Byte) (i : Nat) : Option FieldLine := decEnum fieldLines (u8 b i)

/-- R34, R33: the fields of SET-LINE, none when one is outside its range. -/
def parseLine (b : List Byte) : Option (FieldLine × LineSettings) :=
  match lineAt b 0, decEnum bitRates (u8 b 1), decEnum sweepModes (u8 b 9), decEnum booleans (u8 b 10) with
  | some line, some bitRate, some mode, some autoStart =>
    if inRange 20 2000 (u16 b 2) && inRange 0 31 (u8 b 4) && inRange 0 7 (u8 b 5) && inRange 1 15 (u8 b 6) &&
        inRange 0 600 (u16 b 7) then
      some (line, { bitRate, replyTimeout := u16 b 2, guard := u8 b 4, retries := u8 b 5, silence := u8 b 6, interval := u16 b 7,
                    mode, autoStart })
    else none
  | _, _, _, _ => none

/-- R34: SET-LINE. Quiet bit times that the line has counted keep their number under a new bit rate (DESIGN CHOICE, log entry 23). -/
def ownSetLine (b : List Byte) (s : State) : State × Served :=
  match parseLine b with
  | none => (s, refuse .badValue)
  | some (l, v) => answer [(!lineStopped s l, .busy)] s (modLine l (fun c => { c with settings := v }) s, ok)

/-- R54: START-LINE. -/
def ownStartLine (b : List Byte) (s : State) : State × Served :=
  match lineAt b 0 with
  | none => (s, refuse .badValue)
  | some l => answer [(!lineStopped s l, .state)] s (startSweep l s, ok)

/-- R55: STOP-LINE. -/
def ownStopLine (b : List Byte) (s : State) : State × Served :=
  match lineAt b 0 with
  | none => (s, refuse .badValue)
  | some l => (stopLine l s, ok)

/-- R52: SET-SWEEP-MODE. -/
def ownSetSweepMode (b : List Byte) (s : State) : State × Served :=
  match lineAt b 0, decEnum sweepModes (u8 b 1) with
  | some l, some m => (modLine l (fun c => { c with settings := { c.settings with mode := m } }) s, ok)
  | _, _ => (s, refuse .badValue)

/-- R53: the outstation joins its line's interrogation list as the newest entry; on a RESTING line that is a visit boundary. -/
def addInterrogation (l : FieldLine) (n : Nat) (s : State) : State :=
  let t := modLine l (fun c => { c with list := c.list ++ [n] }) s
  if (lineOf s l).state = .resting then visitBoundary l t else t

/-- R53: INTERROGATE. -/
def ownInterrogate (b : List Byte) (s : State) : State × Served :=
  let n := u8 b 0
  if !inRange 1 Config.maxStation n then (s, refuse .badValue)
  else match stationOf s n with
    | none => (s, refuse .notFound)
    | some st =>
      let l := st.settings.line
      if lineStopped s l || !st.settings.enabled then (s, refuse .state)
      else if n ∈ (lineOf s l).list then (s, ok)
      else if Config.maxInterrogation ≤ (lineOf s l).list.length then (s, refuse .full)
      else (addInterrogation l n s, ok)

end Sys2Proof.Machine
end

