-- ==== Sys2Proof/Machine/RequestMeanings.lean ====
section
/-! DEFINITION. Meanings: the 34 requests (R177). Each serves the oldest frame of the request intake, when that frame may be
served and its kind is this one (R169, log entry 16). -/

namespace Sys2Proof.Machine

/-- DEFINE_STATION (R11). -/
def execDefineStation (s : State) : Answer := .next (serve 0x10 ownDefineStation s)

/-- REMOVE_STATION (R12). -/
def execRemoveStation (s : State) : Answer := .next (serve 0x11 ownRemoveStation s)

/-- DEFINE_ASSET (R13). -/
def execDefineAsset (s : State) : Answer := .next (serve 0x12 ownDefineAsset s)

/-- REMOVE_ASSET (R14). -/
def execRemoveAsset (s : State) : Answer := .next (serve 0x13 ownRemoveAsset s)

/-- SET_PROFILE (R15). -/
def execSetProfile (s : State) : Answer := .next (serve 0x14 ownSetProfile s)

/-- SET_AREA (R16). -/
def execSetArea (s : State) : Answer := .next (serve 0x15 ownSetArea s)

/-- READ_STATION (R17). -/
def execReadStation (s : State) : Answer := .next (serve 0x18 ownReadStation s)

/-- READ_ASSET (R17). -/
def execReadAsset (s : State) : Answer := .next (serve 0x19 ownReadAsset s)

/-- READ_PROFILE (R17). -/
def execReadProfile (s : State) : Answer := .next (serve 0x1A ownReadProfile s)

/-- SET_TIME (R24). -/
def execSetTime (s : State) : Answer := .next (serve 0x20 ownSetTime s)

/-- CLOCK_RETRY (R23). -/
def execClockRetry (s : State) : Answer := .next (serve 0x21 ownClockRetry s)

/-- SET_DAYLIGHT_SOURCE (R31). -/
def execSetDaylightSource (s : State) : Answer := .next (serve 0x22 ownSetDaylightSource s)

/-- SET_DAYLIGHT (R30). -/
def execSetDaylight (s : State) : Answer := .next (serve 0x23 ownSetDaylight s)

/-- SET_LINE (R34). -/
def execSetLine (s : State) : Answer := .next (serve 0x30 ownSetLine s)

/-- START_LINE (R54). -/
def execStartLine (s : State) : Answer := .next (serve 0x31 ownStartLine s)

/-- STOP_LINE (R55). -/
def execStopLine (s : State) : Answer := .next (serve 0x32 ownStopLine s)

/-- SET_SWEEP_MODE (R52). -/
def execSetSweepMode (s : State) : Answer := .next (serve 0x33 ownSetSweepMode s)

/-- INTERROGATE (R53). -/
def execInterrogate (s : State) : Answer := .next (serve 0x34 ownInterrogate s)

/-- RELEARN (R87). -/
def execRelearn (s : State) : Answer := .next (serve 0x40 ownRelearn s)

/-- READ_RECORD (R116). -/
def execReadRecord (s : State) : Answer := .next (serve 0x50 ownReadRecord s)

/-- LIST_RECORDS (R117). -/
def execListRecords (s : State) : Answer := .next (serve 0x51 ownListRecords s)

/-- READ_INCIDENT (R142). -/
def execReadIncident (s : State) : Answer := .next (serve 0x58 ownReadIncident s)

/-- LIST_INCIDENTS (R143). -/
def execListIncidents (s : State) : Answer := .next (serve 0x59 ownListIncidents s)

/-- BREAK_OUT (R141). -/
def execBreakOut (s : State) : Answer := .next (serve 0x5A ownBreakOut s)

/-- PEEK (R157). -/
def execPeek (s : State) : Answer := .next (serve 0x60 ownPeek s)

/-- LIST_QUEUE (R158). -/
def execListQueue (s : State) : Answer := .next (serve 0x61 ownListQueue s)

/-- ACKNOWLEDGE (R155). -/
def execAcknowledge (s : State) : Answer := .next (serve 0x62 ownAcknowledge s)

/-- SET_ALERT (R163). -/
def execSetAlert (s : State) : Answer := .next (serve 0x63 ownSetAlert s)

/-- SET_NOTICES (R160). -/
def execSetNotices (s : State) : Answer := .next (serve 0x64 ownSetNotices s)

/-- READ_STATUS (R174). -/
def execReadStatus (s : State) : Answer := .next (serve 0x70 ownReadStatus s)

/-- SET_CONSOLE_RATE (R172). -/
def execSetConsoleRate (s : State) : Answer := .next (serve 0x71 ownSetConsoleRate s)

/-- SAVE_SETTINGS (R182). -/
def execSaveSettings (s : State) : Answer := .next (serve 0x78 ownSaveSettings s)

/-- RESTART (R185). -/
def execRestart (s : State) : Answer := .next (serve 0x79 ownRestart s)

/-- FACTORY_DEFAULTS (R186). -/
def execFactoryDefaults (s : State) : Answer := .next (serve 0x7A ownFactoryDefaults s)

end Sys2Proof.Machine
end

