-- ==== Sys2Proof/Machine/ResetMeanings.lean ====
section
/-! DEFINITION. Meanings: the four resets (R184 to R186). -/

namespace Sys2Proof.Machine

/-- POWER_ON (R184). It comes at any moment, so nothing that was due is done first. -/
def execPowerOn (s : State) : Answer := .next (startUp s)

/-- RESET_PIN (R184). -/
def execResetPin (s : State) : Answer := .next (startUp s)

/-- RESTART_RESET (R185, R172). -/
def execRestartReset (s : State) : Answer := .next (restartNow (settle s))

/-- FACTORY_DEFAULTS_RESET (R186, R172). -/
def execFactoryDefaultsReset (s : State) : Answer := .next (factoryNow (settle s))

end Sys2Proof.Machine
end

