-- ==== Sys2Proof/Machine/TickMeanings.lean ====
section
/-! DEFINITION. Meanings: the seconds tick, what a tick brings to its end, and the store's completion (R19). -/

namespace Sys2Proof.Machine

/-- SECONDS_TICK (R19): the tick before is complete, and the next is offered. -/
def execSecondsTick (qualifierFirst : Bool) (s : State) : Answer := .next (offerTick qualifierFirst (settle s))

/-- CONFIRM_TERM_REACHED (R96). -/
def execConfirmTermReached (asset : Nat) (cond : Condition) (s : State) : Answer :=
  .next (clearIfDone (recordEvent asset cond Ending.confirms defaultEscalateFirst s))

/-- COUNT_WINDOW_EXPIRY (R99). -/
def execCountWindowExpiry (asset : Nat) (cond : Condition) (s : State) : Answer :=
  .next (clearIfDone (recordEvent asset cond Ending.expires defaultEscalateFirst s))

/-- CLEAR_TIME_REACHED (R102): of a record that this tick also brings to its escalation term, it says that it enters RESTORED first
(log entry 4). -/
def execClearTimeReached (asset : Nat) (cond : Condition) (s : State) : Answer :=
  .next (clearIfDone (recordEvent asset cond Ending.clears clearingOrder s))

/-- ESCALATION (R109): of a record that this tick also brings to its clear time, it says that it escalates first
(log entry 4). -/
def execEscalation (asset : Nat) (cond : Condition) (s : State) : Answer :=
  .next (clearIfDone (recordEvent asset cond Ending.escalates (fun _ => true) s))

/-- RELEASE_TIMER_EXPIRY (R132). -/
def execReleaseTimerExpiry (feeder : Nat) (s : State) : Answer := .next (clearIfDone (takeRelease feeder s))

/-- STORM_WINDOW_ROTATION (R136). -/
def execStormWindowRotation (s : State) : Answer := .next (clearIfDone (takeRotation s))

/-- SETTLING_END (R28). -/
def execSettlingEnd (s : State) : Answer := .next (clearIfDone (takeGate s))

/-- SWEEP_INTERVAL_EXPIRY (R50). -/
def execSweepIntervalExpiry (line : FieldLine) (s : State) : Answer := .next (clearIfDone (takeLines line s))

/-- SAVE_TIMEOUT (R183). -/
def execSaveTimeout (s : State) : Answer := .next (clearIfDone (takeSave s))

/-- SAVE_COMPLETION (R183). -/
def execSaveCompletion (s : State) : Answer := .next (completeSave (settle s))

end Sys2Proof.Machine
end

