-- ==== Sys2Proof/Machine/Dispatch.lean ====
section
/-! DEFINITION. The dispatch of a command to its meaning, one arm per constructor. -/

namespace Sys2Proof.Machine

def exec (i : Instr) (s : State) : Host.Outcome State Fault Refusal :=
  match i with
  | .powerOn => Sys2Proof.Machine.execPowerOn s
  | .resetPin => Sys2Proof.Machine.execResetPin s
  | .secondsTick qualifierFirst => Sys2Proof.Machine.execSecondsTick qualifierFirst s
  | .confirmTermReached asset cond => Sys2Proof.Machine.execConfirmTermReached asset cond s
  | .countWindowExpiry asset cond => Sys2Proof.Machine.execCountWindowExpiry asset cond s
  | .clearTimeReached asset cond => Sys2Proof.Machine.execClearTimeReached asset cond s
  | .escalation asset cond => Sys2Proof.Machine.execEscalation asset cond s
  | .releaseTimerExpiry feeder => Sys2Proof.Machine.execReleaseTimerExpiry feeder s
  | .stormWindowRotation => Sys2Proof.Machine.execStormWindowRotation s
  | .settlingEnd => Sys2Proof.Machine.execSettlingEnd s
  | .sweepIntervalExpiry line => Sys2Proof.Machine.execSweepIntervalExpiry line s
  | .saveTimeout => Sys2Proof.Machine.execSaveTimeout s
  | .saveCompletion => Sys2Proof.Machine.execSaveCompletion s
  | .qualificationComplete => Sys2Proof.Machine.execQualificationComplete s
  | .qualificationTimeout => Sys2Proof.Machine.execQualificationTimeout s
  | .crystalEdgeLoss => Sys2Proof.Machine.execCrystalEdgeLoss s
  | .flashPhase => Sys2Proof.Machine.execFlashPhase s
  | .pollSend line bits => Sys2Proof.Machine.execPollSend line bits s
  | .replyTimeout line => Sys2Proof.Machine.execReplyTimeout line s
  | .incompleteReplyGap line => Sys2Proof.Machine.execIncompleteReplyGap line s
  | .replyComplete line => Sys2Proof.Machine.execReplyComplete line s
  | .slotGrant => Sys2Proof.Machine.execSlotGrant s
  | .decoderTakeBlock => Sys2Proof.Machine.execDecoderTakeBlock s
  | .applyEntry => Sys2Proof.Machine.execApplyEntry s
  | .consoleFrameComplete => Sys2Proof.Machine.execConsoleFrameComplete s
  | .consoleGapExpiry => Sys2Proof.Machine.execConsoleGapExpiry s
  | .unknownKindRequest => Sys2Proof.Machine.execUnknownKindRequest s
  | .headNoticeSend => Sys2Proof.Machine.execHeadNoticeSend s
  | .transmitComplete => Sys2Proof.Machine.execTransmitComplete s
  | .consoleRateSwitch => Sys2Proof.Machine.execConsoleRateSwitch s
  | .restartReset => Sys2Proof.Machine.execRestartReset s
  | .factoryDefaultsReset => Sys2Proof.Machine.execFactoryDefaultsReset s
  | .defineStation => Sys2Proof.Machine.execDefineStation s
  | .removeStation => Sys2Proof.Machine.execRemoveStation s
  | .defineAsset => Sys2Proof.Machine.execDefineAsset s
  | .removeAsset => Sys2Proof.Machine.execRemoveAsset s
  | .setProfile => Sys2Proof.Machine.execSetProfile s
  | .setArea => Sys2Proof.Machine.execSetArea s
  | .readStation => Sys2Proof.Machine.execReadStation s
  | .readAsset => Sys2Proof.Machine.execReadAsset s
  | .readProfile => Sys2Proof.Machine.execReadProfile s
  | .setTime => Sys2Proof.Machine.execSetTime s
  | .clockRetry => Sys2Proof.Machine.execClockRetry s
  | .setDaylightSource => Sys2Proof.Machine.execSetDaylightSource s
  | .setDaylight => Sys2Proof.Machine.execSetDaylight s
  | .setLine => Sys2Proof.Machine.execSetLine s
  | .startLine => Sys2Proof.Machine.execStartLine s
  | .stopLine => Sys2Proof.Machine.execStopLine s
  | .setSweepMode => Sys2Proof.Machine.execSetSweepMode s
  | .interrogate => Sys2Proof.Machine.execInterrogate s
  | .relearn => Sys2Proof.Machine.execRelearn s
  | .readRecord => Sys2Proof.Machine.execReadRecord s
  | .listRecords => Sys2Proof.Machine.execListRecords s
  | .readIncident => Sys2Proof.Machine.execReadIncident s
  | .listIncidents => Sys2Proof.Machine.execListIncidents s
  | .breakOut => Sys2Proof.Machine.execBreakOut s
  | .peek => Sys2Proof.Machine.execPeek s
  | .listQueue => Sys2Proof.Machine.execListQueue s
  | .acknowledge => Sys2Proof.Machine.execAcknowledge s
  | .setAlert => Sys2Proof.Machine.execSetAlert s
  | .setNotices => Sys2Proof.Machine.execSetNotices s
  | .readStatus => Sys2Proof.Machine.execReadStatus s
  | .setConsoleRate => Sys2Proof.Machine.execSetConsoleRate s
  | .saveSettings => Sys2Proof.Machine.execSaveSettings s
  | .restart => Sys2Proof.Machine.execRestart s
  | .factoryDefaults => Sys2Proof.Machine.execFactoryDefaults s
  | .consoleCharacterReceived byte => Sys2Proof.Machine.execConsoleCharacterReceived byte s
  | .fieldCharacterReceived line byte => Sys2Proof.Machine.execFieldCharacterReceived line byte s
  | .crystalCycleMeasured period => Sys2Proof.Machine.execCrystalCycleMeasured period s

end Sys2Proof.Machine
end

