-- ==== Sys2Proof/Safety.lean ====
section
/-! DEFINITION. The invariants that claims are stated in: sizes within the limits of the spec, records that fit their condition, a queue in
rank order, an ALERT output that agrees with it, and tables in their canonical form. Each is meant to hold at reset and to be kept by every step. -/

namespace Sys2Proof.Machine

/-- A record without its waiting mark: what a queue action leaves of it. -/
def Record.unmarked (r : Record) : Record := { r with waiting := none }

/-- A slot without its waiting mark: what a queue action leaves of it. -/
def Slot.unmarked (v : Slot) : Slot := { v with waiting := none }

/-- R181: the settings that a configuration holds for a line. -/
def Configuration.line (c : Configuration) : FieldLine → LineSettings
  | .a => c.lineA
  | .b => c.lineB
  | .c => c.lineC
  | .d => c.lineD

/-! ## Sizes -/

/-- R19, R21, R24: the counts of the Timebase. -/
structure TimebaseSized (t : Timebase) : Prop where
  second : t.runSecond ≤ Config.maxRunSecond
  goodCycles : t.goodCycles ≤ Config.qualifyingCycles
  elapsed : t.elapsed ≤ qualifyingLimit
  offset : t.wallOffset < Config.wallModulus

/-- R27: the settling count and the settle time. -/
structure GateSized (g : Gate) : Prop where
  count : g.count ≤ 3600
  settleTime : g.settleTime ≤ 3600

/-- R33, R35, R36: a line controller's interrogation list, interval count and interval setting; and the driver enable is asserted exactly while a poll
is being sent, whose bits have not all gone out. -/
structure LineSized (c : LineController) : Prop where
  list : c.list.length ≤ Config.maxInterrogation
  interval : c.interval ≤ 600
  setting : c.settings.interval ≤ 600
  driver : c.driverEnable = true ↔ ∃ poll bits, c.exchange = .sending poll bits
  poll : ∀ poll bits, c.exchange = .sending poll bits → bits < (frameBits poll).length

/-- The slot is FILLED. -/
def IntakeSlot.isFilled : IntakeSlot → Bool
  | .filled _ => true
  | _ => false

/-- How many blocks the Decoder is working through. -/
def Decoder.blocks : Decoder → Nat
  | .idle => 0
  | .decoding _ _ => 1

/-- R58, R59: 8 slots, of which at least as many are FILLED as blocks wait for the Decoder or are in it; and a wait list that holds a line at most
once. -/
structure IntakeSized (k : Intake) : Prop where
  slots : k.slots.length = Config.intakeSlots
  order : k.order.length + k.decoder.blocks ≤ k.slots.countP IntakeSlot.isFilled
  waiting : k.waiting.Nodup

/-- R135: a storm window has 10 buckets of at most 255. -/
def windowFits (w : List Nat) : Prop := w.length = 10 ∧ ∀ n ∈ w, n ≤ 255

/-- R27, R33: the counts that a stored or captured configuration brings back. -/
structure ConfigurationSized (c : Configuration) : Prop where
  settleTime : c.settleTime ≤ 3600
  lines : ∀ l, (c.line l).interval ≤ 600

/-- The tables, lists and counters named here are within the bounds the spec gives them. -/
structure Sized (s : State) : Prop where
  timebase : TimebaseSized s.timebase
  gate : GateSized s.gate
  /-- R46. -/
  failures : ∀ e ∈ s.directory.stations, e.2.failures ≤ 15
  lines : ∀ l, LineSized (lineOf s l)
  intake : IntakeSized s.intake
  /-- R88. -/
  records : s.faults.length ≤ Config.maxRecords
  windows : ∀ e ∈ s.incidents.storms, windowFits e.2
  /-- R148. -/
  items : s.dispatch.queue.length ≤ Config.maxQueue
  /-- R168. -/
  frames : s.link.requests.length ≤ Config.requestFrames
  /-- R183. -/
  save : ∀ v, s.store.saving = some v → v.count ≤ 5
  captured : ∀ v, s.store.saving = some v → ConfigurationSized v.captured
  image : ∀ i, s.store.image = some i → ConfigurationSized i.contents

/-! ## Records -/

/-- R89, R91, R111: a record of a condition. A record of a PERSIST or GATED condition keeps evidence at 0 and window_left absent, and holds
one confirm term; no trail is longer than 4; recurrence is at most 255. -/
structure RecordFits (key : Nat) (r : Record) : Prop where
  trail : r.trail.length ≤ 4
  recurrence : r.recurrence ≤ 255
  term : conditionMode (keyCondition key) ≠ .count → ∃ t, r.terms.confirm = .time t
  evidence : conditionMode (keyCondition key) ≠ .count → r.evidence = 0
  window : conditionMode (keyCondition key) ≠ .count → r.windowLeft = none

/-- Every record of the fault table fits its condition. -/
def RecordsFit (s : State) : Prop := ∀ e ∈ s.faults, RecordFits e.1 e.2

/-! ## The queue and the ALERT output -/

/-- R161, R162, R159: the ALERT state is the one its queued items give, the pin is where a steady state puts it, a flash period is in progress
in FLASH alone, and no notice is pending while notices are off. -/
structure AlertAgrees (d : Dispatch) : Prop where
  derived : d.alert = alertFor d.queue
  steady : d.alert = .steady → d.pinHigh = d.alertSettings.activeHigh
  idle : d.alert = .idle → d.pinHigh = !d.alertSettings.activeHigh
  flash : d.flash.isSome = true ↔ d.alert = .flash
  quiet : d.notices = false → d.notice = none

/-- R147, R148, R151: the queue holds at most 192 items in rank order, one for each thing; no queued thing is marked waiting, and a thing waits only
while the queue is full. -/
structure QueueOrdered (s : State) : Prop where
  records : Table.wf s.faults = true
  slots : Table.wf s.incidents.slots = true
  ranked : s.dispatch.queue.Pairwise (fun i j => i.ahead j = true)
  things : (s.dispatch.queue.map Item.thing).Nodup
  apart : ∀ i ∈ s.dispatch.queue, markOf s i.thing = none
  bound : s.dispatch.queue.length ≤ Config.maxQueue
  waits : s.dispatch.queue.length < Config.maxQueue → waitingItems s = []

/-- R148: b is the best-ranked of a list of items. -/
def BestOf (b : Item) (l : List Item) : Prop := b ∈ l ∧ ∀ c ∈ l, c ≠ b → b.ahead c = true

/-- R152 step 2: u is s after a queue action that gave the queue the items q beside the waiting items w and restored the order. While the queue is
full and the best-ranked waiting item ranks ahead of the last queued item, the two have changed places. (A record that the fault table does not hold has
no mark to set.) -/
def OrderRestored (s u : State) (q w : List Item) : Prop :=
  (q.length < Config.maxQueue ∨ w = [] → u.dispatch.queue = q) ∧
  ∀ b last, q.length = Config.maxQueue → BestOf b w → q.getLast? = some last →
    if b.ahead last then u.dispatch.queue.Perm (b :: q.dropLast) ∧ markOf u b.thing = none ∧
      ((∀ key, last.thing = .record key → (recordOf s key).isSome = true) → markOf u last.thing = some last.reason)
    else u.dispatch.queue = q

/-! ## Canonical form -/

/-- The tables of a configuration have their keys rising, and its area table lists no factory settings. -/
structure ConfigurationCanonical (c : Configuration) : Prop where
  stations : Table.wf c.stations = true
  assets : Table.wf c.assets = true
  areas : Table.wf c.areas = true
  areaDefaults : Table.noDefaults {} c.areas = true

/-- Every table is in its canonical form, so that equal contents are equal data. -/
structure Canonical (s : State) : Prop where
  stations : Table.wf s.directory.stations = true
  pointMaps : ∀ e ∈ s.directory.stations, Table.wf e.2.pointMap = true
  assets : Table.wf s.directory.assets = true
  areas : Table.wf s.directory.areas = true
  areaDefaults : Table.noDefaults {} s.directory.areas = true
  faults : Table.wf s.faults = true
  slots : Table.wf s.incidents.slots = true
  slotDefaults : Table.noDefaults {} s.incidents.slots = true
  storms : Table.wf s.incidents.storms = true
  stormDefaults : Table.noDefaults calmWindow s.incidents.storms = true
  image : ∀ i, s.store.image = some i → ConfigurationCanonical i.contents
  captured : ∀ v, s.store.saving = some v → ConfigurationCanonical v.captured

/-! ## When a command finds its cause -/

/-- R169: the oldest frame of the request intake is f, of this kind, and it can be served now: nothing is due, its body has the length of its
kind, and its kind is not one that a save in progress turns away. -/
structure Presents (s : State) (code : Nat) (f : Frame) : Prop where
  settled : settled s = true
  front : s.link.requests.head? = some f
  kind : f.kind.toNat = code
  serves : mayServe s = true
  length : ∀ k, requestKind code = some k → f.body.length = k.length
  free : ∀ k, requestKind code = some k → k.busySaving = true → s.store.saving = none

/-- R170, R171: s with the reply to f being sent: kind and tag of the request, the result code, and the reply data. -/
def withReply (f : Frame) (r : Result) (data : List Byte) (after : AfterReply) (s : State) : State :=
  let g : Frame := { kind := f.kind, tag := f.tag, body := r.code :: data }
  { s with link := { s.link with transmitter := .reply g (frameChars g) after } }

/-- R95: the qualifier stands, at this tick, at the record r of an asset and a condition, which is not held. -/
structure StandsAt (s : State) (a : Nat) (c : Condition) (r : Record) : Prop where
  keys : Table.wf s.faults = true
  due : s.tick.qualifier = some (recordKey a c)
  record : recordOf s (recordKey a c) = some r
  unheld : isHeld s (recordKey a c) = false

/-- R36 to R38: the line awaits or receives a reply in an attempt of a visit, with these characters received, to a defined outstation. -/
structure Awaits (s : State) (l : FieldLine) (chars : List Byte) (v : Visit) (st : Station) : Prop where
  settled : settled s = true
  polling : (lineOf s l).state = .polling
  received : (lineOf s l).exchange = .reply chars
  visit : (lineOf s l).visit = some v
  station : stationOf s v.station = some st

/-- The 34 request commands with the codes of R177. -/
def requestCommands : List (Instr × Nat) :=
  [(.defineStation, 0x10), (.removeStation, 0x11), (.defineAsset, 0x12), (.removeAsset, 0x13), (.setProfile, 0x14), (.setArea, 0x15),
   (.readStation, 0x18), (.readAsset, 0x19), (.readProfile, 0x1A), (.setTime, 0x20), (.clockRetry, 0x21), (.setDaylightSource, 0x22),
   (.setDaylight, 0x23), (.setLine, 0x30), (.startLine, 0x31), (.stopLine, 0x32), (.setSweepMode, 0x33), (.interrogate, 0x34),
   (.relearn, 0x40), (.readRecord, 0x50), (.listRecords, 0x51), (.readIncident, 0x58), (.listIncidents, 0x59), (.breakOut, 0x5A),
   (.peek, 0x60), (.listQueue, 0x61), (.acknowledge, 0x62), (.setAlert, 0x63), (.setNotices, 0x64), (.readStatus, 0x70),
   (.setConsoleRate, 0x71), (.saveSettings, 0x78), (.restart, 0x79), (.factoryDefaults, 0x7A)]

end Sys2Proof.Machine
end

