-- ==== Sys2Proof/Certificates/Slice0/Obligations.lean ====
section
/-! DEFINITION. The statements for the provers. Each says what a command does to the whole state: where a conclusion is an equation of states,
everything it does not name is unchanged. -/

open Sys2Proof Sys2Proof.Machine

/-! ## The queue of commands -/

/-- A step carries out the command at the front of the queue with the queue's rest. Log entries 1 and 7 (the model's choice): on an empty queue what is due
is done and some time passes, at most 1/32768 s and never past the end of the second in progress; nothing but the Timebase's clock and CLOCK-FAIL follows it. -/
def Obligations.StepRunsFrontCommand : Prop :=
  (∀ (c : Instr) (cs : List Instr) (s : State), s.pending = c :: cs → step s = exec c (s.withPending cs)) ∧
    ∀ s : State, s.pending = [] → ∃ t, step s = .next t ∧ t = passIdle (settle s) ∧
      t = { settle s with
            timebase := { (settle s).timebase with
              phase := t.timebase.phase, monitor := t.timebase.monitor, goodCycles := t.timebase.goodCycles, elapsed := t.timebase.elapsed }
            link := { (settle s).link with flags := { (settle s).link.flags with clockFail := t.link.flags.clockFail } } } ∧
      (settle s).timebase.phase ≤ t.timebase.phase ∧ t.timebase.phase ≤ (settle s).timebase.phase + Config.nominalPeriod ∧
      ((settle s).timebase.phase ≤ fullSecond → t.timebase.phase ≤ fullSecond)

/-- R62, and log entries 3 and 5. A command that is not part of a tick, not SLOT_GRANT and not a reset does first what is due: it completes the tick, makes the
grants, and lets the IDLE Decoder take the block at the head of the decode order. What is due can be done: after it nothing is. -/
def Obligations.CommandsSettleFirst : Prop :=
  (∀ (c : Instr) (s : State),
    (match c with
      | .powerOn | .resetPin | .slotGrant | .confirmTermReached _ _ | .countWindowExpiry _ _ | .clearTimeReached _ _ | .escalation _ _
      | .releaseTimerExpiry _ | .stormWindowRotation | .settlingEnd | .sweepIntervalExpiry _ | .saveTimeout => False
      | _ => True) →
    exec c s = exec c (settle s)) ∧
  ∀ s : State, settled (settle s) = true ∧ (settle s).tick = {} ∧ (settled s = true → settle s = s)

/-! ## Resets -/

/-- R184, R181, R2. Power-on and the RESET pin. Without a valid image they leave the part at its factory values, everything else as at reset; the stored image
stays as it is. With a valid image they load its settings and references, and rebuild each outstation's point map from the roles of the assets on it. A line
whose auto-start is off is at its reset values, and one in CONTINUOUS whose auto-start is on is no longer STOPPED (R56). -/
def Obligations.PowerOnLoadsImageOrFactoryValues : Prop :=
  (∀ (c : Instr) (s : State), c = .powerOn ∨ c = .resetPin → (∀ i, s.store.image = some i → i.valid = false) →
    exec c s = .next { State.reset with store := { image := s.store.image }, pending := s.pending }) ∧
  (∀ (c : Instr) (s : State) (i : Image), c = .powerOn ∨ c = .resetPin → s.store.image = some i → i.valid = true →
    ∃ t, exec c s = .next t ∧
      t = { State.reset with
            gate := { source := i.contents.gateSource, settleTime := i.contents.settleTime }
            directory := t.directory
            lines := t.lines
            intake := t.intake
            dispatch := { notices := i.contents.notices, alertSettings := i.contents.alert, pinHigh := !i.contents.alert.activeHigh }
            link := { rate := i.contents.rate, lineRate := i.contents.rate }
            store := { image := some i }
            pending := s.pending } ∧
      (∀ l, (lineOf t l).settings = i.contents.line l ∧
        ((i.contents.line l).autoStart = false → lineOf t l = { settings := i.contents.line l }) ∧
        ((i.contents.line l).autoStart = true → (i.contents.line l).mode = .continuous → (lineOf t l).state ≠ .stopped)) ∧
      ((∀ l, (i.contents.line l).autoStart = false) → t.intake = {}) ∧
      t.directory.profiles = i.contents.profiles ∧ t.directory.areas = i.contents.areas ∧
      (∀ n, (stationOf t n).map (fun st => st.settings) = Table.find i.contents.stations n) ∧
      (∀ n st, stationOf t n = some st → st = { settings := st.settings, pointMap := st.pointMap } ∧
        (∀ p a role, Table.find st.pointMap p = some (a, role) →
          ∃ e, (a, e) ∈ i.contents.assets ∧ e.1.station = n ∧ (p, role) ∈ rolePoints e.1.points) ∧
        ∀ p a role e, (a, e) ∈ i.contents.assets → e.1.station = n → (p, role) ∈ rolePoints e.1.points →
          (∀ x ∈ i.contents.assets, x.2.1.station = n → ∀ r, (p, r) ∈ rolePoints x.2.1.points → x.1 = a ∧ r = role) →
          Table.find st.pointMap p = some (a, role)) ∧
      ∀ a, assetOf t a = (Table.find i.contents.assets a).map (fun e => { settings := e.1, reference := e.2 }))

/-- R185, R172, R56. RESTART is answered OK first, and the reset is due after the reply. With no line to start it keeps settings and references, lets the Timebase
and the gate run on, keeps CLOCK-FAIL, and leaves every other block at its reset values. With lines to start, each line whose auto-start is on and whose mode is
CONTINUOUS is no longer STOPPED after it, and each line whose auto-start is off is at its reset values. -/
def Obligations.RestartKeepsSettings : Prop :=
  (∀ (s : State) (f : Frame), Presents s 0x79 f → exec .restart s = .next (withReply f .ok [] .restart s)) ∧
  (∀ s : State, settled s = true → s.link.after = .restart →
    ∃ t, exec .restartReset s = .next t ∧ ∀ l,
      ((lineOf s l).settings.autoStart = true → (lineOf s l).settings.mode = .continuous → (lineOf t l).state ≠ .stopped) ∧
      ((lineOf s l).settings.autoStart = false → lineOf t l = { settings := (lineOf s l).settings })) ∧
  ∀ s : State, settled s = true → s.link.after = .restart → (∀ l, (lineOf s l).settings.autoStart = false) →
    ∃ t, exec .restartReset s = .next t ∧
      t = { State.reset with
            timebase := s.timebase
            gate := s.gate
            directory := t.directory
            lines := t.lines
            dispatch := { notices := s.dispatch.notices, alertSettings := s.dispatch.alertSettings,
                          pinHigh := !s.dispatch.alertSettings.activeHigh,
                          notice := if s.dispatch.notices then some none else none }
            link := { flags := { clockFail := s.link.flags.clockFail }, rate := s.link.rate, lineRate := s.link.rate }
            store := s.store
            pending := s.pending } ∧
      t.directory.profiles = s.directory.profiles ∧ t.directory.areas = s.directory.areas ∧
      (∀ n, stationOf t n = (stationOf s n).map (fun st => { settings := st.settings, pointMap := st.pointMap })) ∧
      (∀ a, assetOf t a = (assetOf s a).map (fun x => { settings := x.settings, reference := x.reference })) ∧
      ∀ l, lineOf t l = { settings := (lineOf s l).settings }

/-- R186, R172. FACTORY-DEFAULTS is answered OK first, and the reset is due after the reply: factory values, but for the Timebase, the gate's value and settling,
CLOCK-FAIL and the stored image. -/
def Obligations.FactoryDefaultsReset : Prop :=
  (∀ (s : State) (f : Frame), Presents s 0x7A f → exec .factoryDefaults s = .next (withReply f .ok [] .factoryDefaults s)) ∧
  ∀ s : State, settled s = true → s.link.after = .factoryDefaults →
    exec .factoryDefaultsReset s = .next { State.reset with
      timebase := s.timebase
      gate := { s.gate with source := .console, settleTime := 600 }
      link := { flags := { clockFail := s.link.flags.clockFail } }
      store := s.store
      pending := s.pending }

/-! ## The seconds tick -/

/-- R19, R20. SECONDS_TICK: the rest of the second in progress passes on the selected oscillator, and in QUALIFYING toward the 2 s (log entry 7, the model's
choice: the command stands for the whole rest of the second); then the run-second rises by 1. At 4294967295 it holds and there is no tick (but the second ends on the lines, R38). That the command itself
leaves directory, intake, queue and link alone is the model's split of a tick, whose ends stay due for their own commands (log entry 3). -/
def Obligations.SecondsTickRaisesRunSecond : Prop :=
  (∀ (q : Bool) (s : State), settled s = true →
    (s.timebase.runSecond < Config.maxRunSecond → ∃ t, exec (.secondsTick q) s = .next t ∧
      t.timebase = { (completeSecond s).timebase with runSecond := s.timebase.runSecond + 1 } ∧
      t.link = (completeSecond s).link ∧ t.directory = s.directory ∧ t.intake = s.intake ∧ t.dispatch = s.dispatch ∧
      t.store.image = s.store.image ∧ t.pending = s.pending) ∧
    (s.timebase.runSecond = Config.maxRunSecond → exec (.secondsTick q) s = .next (quietLines (completeSecond s)))) ∧
  ∀ s : State,
    (s.timebase.monitor ≠ .qualifying →
      completeSecond s = { s with timebase := { s.timebase with phase := s.timebase.phase - fullSecond } }) ∧
    (s.timebase.monitor = .qualifying → s.timebase.goodCycles < 2048 → s.timebase.elapsed < qualifyingLimit →
      s.timebase.elapsed + (fullSecond - s.timebase.phase) ≤ qualifyingLimit →
      completeSecond s = { s with timebase := { s.timebase with
        phase := s.timebase.phase - fullSecond, elapsed := s.timebase.elapsed + (fullSecond - s.timebase.phase) } }) ∧
    (s.timebase.monitor = .qualifying → s.timebase.goodCycles < 2048 →
      qualifyingLimit < s.timebase.elapsed + (fullSecond - s.timebase.phase) →
      completeSecond s = { s with
        timebase := { s.timebase with phase := s.timebase.phase - fullSecond, monitor := .onInternal, goodCycles := 0, elapsed := 0 }
        link := { s.link with flags := { s.link.flags with clockFail := true } } }) ∧
    (s.timebase.monitor = .qualifying → 2048 ≤ s.timebase.goodCycles →
      completeSecond s = { s with timebase := { s.timebase with
        phase := s.timebase.phase - fullSecond, monitor := .onCrystal, goodCycles := 0, elapsed := 0 } })

/-- R94 to R96, R99, R102, R109: at a tick that brings no record to an end, taken by the qualifier first, a held record stays as it is; in any other the timer of
QUALIFYING under a confirm term and of RESTORING rises by 1, the window of a COUNT record falls by 1, and the escalation timer of an ACTIVE or RESTORING, unseen
record outside every incident rises by 1. R28, R131, R50, R183, R136: a tick lowers the settling count, the release timers, the interval counts and the save count,
where that does not bring them to an end; those ends, and the rotation at a multiple of 30, stay due for their own commands (log entry 3, the model's choice). R38:
a line that has been quiet since the last tick has been so for longer than any guard (how quiet is counted: log entry 7). -/
def Obligations.TickRaisesRecordTimers : Prop :=
  (∀ s : State, settled s = true → Table.wf s.faults = true → s.timebase.runSecond < Config.maxRunSecond →
    (∀ key, recordEnds s key = false) →
    ∃ t, exec (.secondsTick true) s = .next t ∧ ∀ key r, recordOf s key = some r →
      (isHeld s key = true ∨ r.state = .restored → recordOf t key = some r) ∧
      (isHeld s key = false → r.state = .qualifying → (∃ n, r.terms.confirm = .time n) →
        recordOf t key = some { r with timer := r.timer + 1 }) ∧
      (isHeld s key = false → r.state = .qualifying → (∃ n w, r.terms.confirm = .count n w) →
        recordOf t key = some { r with windowLeft := r.windowLeft.map (· - 1) }) ∧
      (isHeld s key = false → r.state = .active ∨ r.state = .restoring → recordOf t key = some { r with
        timer := if r.state = .restoring then r.timer + 1 else r.timer
        escTimer := if r.seen = false ∧ r.incident = none then min 65535 (r.escTimer + 1) else r.escTimer })) ∧
  ∀ (q : Bool) (s : State), settled s = true → s.timebase.runSecond < Config.maxRunSecond →
    ∃ t, exec (.secondsTick q) s = .next t ∧
      (t.gate = if s.gate.settling = true ∧ 1 < s.gate.count then { s.gate with count := s.gate.count - 1 } else s.gate) ∧
      (t.tick.gate = true ↔ s.gate.settling = true ∧ s.gate.count ≤ 1) ∧
      (∀ f, 1 ≤ f → f ≤ 64 → (slotOf s (feederSlot f)).state = .releasing →
        (1 < (slotOf s (feederSlot f)).release →
          slotOf t (feederSlot f) = { slotOf s (feederSlot f) with release := (slotOf s (feederSlot f)).release - 1 }) ∧
        ((slotOf s (feederSlot f)).release ≤ 1 → slotOf t (feederSlot f) = slotOf s (feederSlot f) ∧ f ∈ t.tick.release)) ∧
      (∀ l, (l ∈ t.tick.lines ↔ (lineOf s l).state = .resting ∧ (lineOf s l).interval ≤ 1) ∧
        lineOf t l = { lineOf s l with
          interval := if (lineOf s l).state = .stopped ∨ l ∈ t.tick.lines then (lineOf s l).interval else (lineOf s l).interval - 1
          quiet := if (lineOf s l).quietSecond = true then max (lineOf s l).quiet 31 else (lineOf s l).quiet
          quietSecond := true }) ∧
      (∀ v, s.store.saving = some v →
        (1 < v.count → t.store.saving = some { v with count := v.count - 1 }) ∧
        (v.count ≤ 1 → t.store.saving = some v ∧ t.tick.save = true)) ∧
      (t.tick.rotation = true ↔ (s.timebase.runSecond + 1) % 30 = 0)

/-- R96. A tick at which a QUALIFYING record under a confirm term is not held raises its timer by 1, and a tick at which it is held leaves it; the tick
that brings the timer to the confirm term confirms the record; and a present observation sets observed present and nothing else. -/
def Obligations.ConfirmTermConfirmsRecord : Prop :=
  (∀ (s : State) (a : Nat) (c : Condition) (r : Record) (n : Seconds),
    StandsAt s a c r → r.state = .qualifying → r.terms.confirm = .time n → n ≤ r.timer + 1 →
    ∃ t q, exec (.confirmTermReached a c) s = .next t ∧ recordOf t (recordKey a c) = some q ∧
      q.state = .active ∧ q.timer = 0 ∧ q.confirmed = some (now s) ∧ q.restored = none ∧ q.escalated = false ∧ q.escTimer = 0 ∧
      q.windowLeft = none ∧ q.quality = some (quality s) ∧ q.terms = termsOf c (assetProfile s a) ∧
      q.observed = r.observed ∧ q.recurrence = r.recurrence ∧ q.created = r.created ∧ q.evidence = r.evidence ∧ q.lampsOut = r.lampsOut) ∧
  (∀ (s : State) (key : Nat) (r : Record) (n : Seconds),
    recordOf s key = some r → r.state = .qualifying → r.terms.confirm = .time n →
    (isHeld s key = true → recordTickDefault s key = s) ∧
    (isHeld s key = false → r.timer + 1 < n → ∃ t, recordTickDefault s key = t ∧ t = { s with faults := t.faults } ∧
      recordOf t key = some { r with timer := r.timer + 1 } ∧ ∀ k, k ≠ key → recordOf t k = recordOf s k)) ∧
  ∀ (s : State) (a w : Nat) (c : Condition) (r : Record) (n : Seconds),
    recordOf s (recordKey a c) = some r → r.state = .qualifying → r.terms.confirm = .time n → heldBy s a c = .notHeld →
    ∃ t, observe a c true w s = t ∧ t = { s with faults := t.faults } ∧ recordOf t (recordKey a c) = some { r with observed := true } ∧
      ∀ k, k ≠ recordKey a c → recordOf t k = recordOf s k

/-- R123, R129, R130, R133, R135, R137, R138: what the Incident Table does with a record that confirms. The confirmation counts in the current bucket of its area.
The root of a feeder opens or reopens the feeder's slot, which gathers its dark circuits. A dark circuit joins its open feeder's slot. A record that its
feeder does not claim, of whatever condition, joins its area's slot, when the opening test opens that slot, which then gathers the area's standing records, or when the slot is absorbing. -/
def Obligations.ConfirmationIsClaimed : Prop :=
  ∀ (s : State) (a : Nat) (c : Condition) (r : Record) (k : Seconds) (x : Asset),
    StandsAt s a c r → r.state = .qualifying → r.incident = none → r.terms.confirm = .time k → k ≤ r.timer + 1 → assetOf s a = some x →
    x.settings.feeder ≤ 64 → x.settings.area ≤ 64 →
    ∃ t q, exec (.confirmTermReached a c) s = .next t ∧ recordOf t (recordKey a c) = some q ∧
      (∀ area front last, windowOf s area = front ++ [last] → windowOf t area =
        if area = x.settings.area ∧ area ≠ 0 then front ++ [min 255 (last + 1)] else windowOf s area) ∧
      (c = .mainsLost → x.settings.kind = .cabinet → x.settings.feeder ≠ 0 → (slotOf s (feederSlot x.settings.feeder)).state ≠ .opened →
        q.incident = some (feederSlot x.settings.feeder) ∧ q.seen = false ∧
        (slotOf t (feederSlot x.settings.feeder)).unmarked = { slotOf s (feederSlot x.settings.feeder) with
          state := .opened, seen := false, openedAt := some (now s), restoredAt := none, release := 0, root := some (recordKey a c)
          leftBehind := 0, waiting := none
          members := (slotOf s (feederSlot x.settings.feeder)).members + 1 + (feederCandidates s x.settings.feeder).length } ∧
        ∀ key ∈ feederCandidates s x.settings.feeder, ∃ m, recordOf t key = some m ∧ m.incident = some (feederSlot x.settings.feeder)) ∧
      (c = .circuitDark ∨ c = .partialOut → x.settings.kind = .lampCircuit → x.settings.feeder ≠ 0 →
        (slotOf s (feederSlot x.settings.feeder)).state = .opened →
        q.incident = some (feederSlot x.settings.feeder) ∧ q.seen = (slotOf s (feederSlot x.settings.feeder)).seen ∧
        (slotOf t (feederSlot x.settings.feeder)).unmarked = { slotOf s (feederSlot x.settings.feeder) with
          members := (slotOf s (feederSlot x.settings.feeder)).members + 1, waiting := none }) ∧
      (let rooted : Prop := c = .mainsLost ∧ x.settings.kind = .cabinet ∧ x.settings.feeder ≠ 0 ∧
          (slotOf s (feederSlot x.settings.feeder)).state ≠ .opened
       let fed : Prop := (c = .circuitDark ∨ c = .partialOut) ∧ x.settings.kind = .lampCircuit ∧ x.settings.feeder ≠ 0 ∧
          (slotOf s (feederSlot x.settings.feeder)).state = .opened
       (¬ rooted → ¬ fed → x.settings.area ≠ 0 →
        let v := slotOf s (areaSlot x.settings.area)
        let w := slotOf t (areaSlot x.settings.area)
        let set := areaOf s x.settings.area
        if set.stormThreshold ≠ 0 ∧ set.stormThreshold ≤ (windowOf t x.settings.area).sum ∧ v.absorbing = false then
          q.incident = some (areaSlot x.settings.area) ∧ q.seen = false ∧
          w.unmarked = { v with
            state := .opened, absorbing := true, seen := false, openedAt := some (now s), restoredAt := none, waiting := none
            members := v.members + 1 + (areaCandidates s x.settings.area).length } ∧
          ∀ key ∈ areaCandidates s x.settings.area, ∃ m, recordOf t key = some m ∧ m.incident = some (areaSlot x.settings.area)
        else if v.state = .opened ∧ v.absorbing = true then
          q.incident = some (areaSlot x.settings.area) ∧ q.seen = v.seen ∧
          w.unmarked = { v with members := v.members + 1, waiting := none }
        else q.incident = none ∧ q.seen = false ∧ w.unmarked = v.unmarked) ∧
       (¬ rooted → ¬ fed → x.settings.area = 0 → q.incident = none ∧ q.seen = false ∧
        ∀ n, (slotOf t n).unmarked = (slotOf s n).unmarked)) ∧
      t.timebase = s.timebase ∧ t.gate = s.gate ∧ t.directory = s.directory ∧ t.lines = s.lines ∧ t.intake = s.intake ∧
      t.link = s.link ∧ t.store = s.store ∧ t.pending = s.pending

/-- R99. A tick at which a QUALIFYING COUNT record is not held lowers its window by 1, whatever its observed field holds, and a tick at which it is held
leaves it; the tick that brings the window to 0 removes the record. -/
def Obligations.CountWindowExpiryRemovesRecord : Prop :=
  (∀ (s : State) (a : Nat) (c : Condition) (r : Record) (n : Nat) (w : Seconds),
    StandsAt s a c r → r.state = .qualifying → r.terms.confirm = .count n w → r.windowLeft.getD 0 ≤ 1 →
    ∃ t, exec (.countWindowExpiry a c) s = .next t ∧ recordOf t (recordKey a c) = none ∧
      t.timebase = s.timebase ∧ t.gate = s.gate ∧ t.directory = s.directory ∧ t.lines = s.lines ∧ t.intake = s.intake ∧
      t.link = s.link ∧ t.store = s.store ∧ t.pending = s.pending) ∧
  ∀ (s : State) (key : Nat) (r : Record) (n left : Nat) (w : Seconds),
    recordOf s key = some r → r.state = .qualifying → r.terms.confirm = .count n w → r.windowLeft = some left →
    (isHeld s key = true → recordTickDefault s key = s) ∧
    (isHeld s key = false → 1 < left → ∃ t, recordTickDefault s key = t ∧ t = { s with faults := t.faults } ∧
      recordOf t key = some { r with windowLeft := some (left - 1) } ∧ ∀ k, k ≠ key → recordOf t k = recordOf s k)

/-- R102 to R104, R122, R124, R130. The tick that brings a RESTORING record's timer to clear_time: an unseen record with auto_close on is removed, and so is a
member of a feeder or area slot; any other record enters RESTORED. The slot of a member that is removed loses one from its count; an OPEN feeder slot whose root it
was enters RELEASING, with the release_wait of the profile of the cabinet that supplies the feeder and no root; an OPEN area slot that does not absorb and loses its
last member enters RESTORED. No other slot changes. -/
def Obligations.ClearTimeRestoresRecord : Prop :=
  ∀ (s : State) (a : Nat) (c : Condition) (r : Record),
    StandsAt s a c r → r.state = .restoring → r.terms.clearTime ≤ r.timer + 1 →
    ∃ t, exec (.clearTimeReached a c) s = .next t ∧
      (if (r.seen = false ∧ (assetProfile s a).autoClose = true) ∨ (∃ n, r.incident = some n ∧ slotType n ≠ .outstation) then
        recordOf t (recordKey a c) = none
      else ∃ q, recordOf t (recordKey a c) = some q ∧ q.state = .restored ∧ q.timer = 0 ∧ q.restored = some (now s) ∧
        q.seen = r.seen ∧ q.incident = r.incident ∧ q.confirmed = r.confirmed ∧ q.recurrence = r.recurrence ∧
        q.terms = termsOf c (assetProfile s a)) ∧
      (∀ n, r.incident ≠ some n → (slotOf t n).unmarked = (slotOf s n).unmarked) ∧
      ∀ n, r.incident = some n →
        let v := slotOf s n
        let w := (slotOf t n).unmarked
        if ¬ (r.seen = false ∧ (assetProfile s a).autoClose = true) ∧ slotType n = .outstation then w = v.unmarked
        else if slotType n = .feeder ∧ v.state = .opened ∧ v.root = some (recordKey a c) then
          w = { v with members := v.members - 1, state := .releasing, release := w.release, root := none, waiting := none } ∧
          ∀ e ∈ s.directory.assets, e.2.settings.kind = .cabinet → e.2.settings.feeder = slotCause n →
            (∀ x ∈ s.directory.assets, x.2.settings.kind = .cabinet → x.2.settings.feeder = slotCause n → x = e) →
            ∀ p, s.directory.profiles[e.2.settings.profile]? = some p → w.release = p.releaseWait
        else if slotType n = .area ∧ v.state = .opened ∧ v.absorbing = false ∧ v.members ≤ 1 then
          w = { v with members := v.members - 1, state := .restored, restoredAt := some (now s), waiting := none }
        else w = { v with members := v.members - 1, waiting := none }

/-- R109, R110. The tick that brings the escalation timer of an ACTIVE, unseen record outside every incident to its term marks it escalated, and
its effective priority is one class higher, at most 1. -/
def Obligations.EscalationRaisesPriority : Prop :=
  ∀ (s : State) (a : Nat) (c : Condition) (r : Record),
    StandsAt s a c r → r.state = .active → r.seen = false → r.incident = none → r.escalated = false →
    r.terms.escalateAfter ≠ 0 → r.terms.escalateAfter ≤ min 65535 (r.escTimer + 1) →
    ∃ t q, exec (.escalation a c) s = .next t ∧ recordOf t (recordKey a c) = some q ∧
      q.unmarked = { r with escTimer := min 65535 (r.escTimer + 1), escalated := true, waiting := none } ∧
      recordPriority t (recordKey a c) q = max 1 (assetPriority s a - 1)

/-- R132. The tick that brings a RELEASING feeder slot's release timer to 0 releases its members, counts them as left behind, and leaves the slot
RESTORED. -/
def Obligations.ReleaseTimerRestoresSlot : Prop :=
  ∀ (s : State) (f : Nat), f ∈ s.tick.release → (slotOf s (feederSlot f)).state = .releasing →
    ∃ t, exec (.releaseTimerExpiry f) s = .next t ∧
      (slotOf t (feederSlot f)).state = .restored ∧ (slotOf t (feederSlot f)).restoredAt = some (now s) ∧
      (slotOf t (feederSlot f)).leftBehind = (slotOf s (feederSlot f)).members ∧ (slotOf t (feederSlot f)).release = 0 ∧
      (slotOf t (feederSlot f)).seen = (slotOf s (feederSlot f)).seen ∧
      (∀ key r, recordOf s key = some r → r.incident = some (feederSlot f) →
        ∃ q, recordOf t key = some q ∧ q.unmarked = { r with incident := none, waiting := none }) ∧
      t.timebase = s.timebase ∧ t.directory = s.directory ∧ t.lines = s.lines ∧ t.link = s.link ∧ t.store = s.store

/-- R136. The rotation clears the oldest bucket of every area's storm window and makes it the current one; an open, absorbing area slot whose
area is then calm stops absorbing, and is RESTORED when it has no members. -/
def Obligations.StormWindowsRotate : Prop :=
  ∀ s : State, s.tick.rotation = true →
    ∃ t, exec .stormWindowRotation s = .next t ∧ ∀ area, 1 ≤ area → area ≤ 64 →
      windowOf t area = (windowOf s area).drop 1 ++ [0] ∧
      ((slotOf s (areaSlot area)).state = .opened → (slotOf s (areaSlot area)).absorbing = true →
        ((areaOf s area).stormThreshold = 0 ∨ ((windowOf s area).drop 1 ++ [0]).sum ≤ (areaOf s area).calmLevel) →
        (slotOf t (areaSlot area)).absorbing = false ∧
        (slotOf t (areaSlot area)).state = (if (slotOf s (areaSlot area)).members = 0 then .restored else .opened))

/-- R28. The tick that ends settling brings the count to 0 and clears the flag; the gate keeps its value, and nothing else changes but what of
the tick is due. -/
def Obligations.SettlingEnds : Prop :=
  ∀ s : State, s.tick.gate = true → s.gate.settling = true → s.gate.count = 1 →
    ∃ t, exec .settlingEnd s = .next t ∧ t = { s with gate := { s.gate with settling := false, count := 0 }, tick := t.tick }

/-! ## Settings Store -/

/-- R182, R183. SAVE-SETTINGS captures the configuration, clears the stored image's mark and enters SAVING with count 5. The tick that brings the count to 0
abandons the write: the store is IDLE and SAVE-FAILED is set; that the image otherwise stays as SAVE-SETTINGS left it, contents and CRC, is the model's choice (log
entry 9). The completion stores the capture with its CRC, so that the image is valid and the store IDLE; with the store IDLE it changes nothing. -/
def Obligations.SaveCapturesAndEnds : Prop :=
  (∀ (s : State) (v : Saving), s.tick.save = true → s.store.saving = some v → v.count = 1 →
    ∃ t, exec .saveTimeout s = .next t ∧ t = { s with
      store := { s.store with saving := none }
      link := { s.link with flags := { s.link.flags with saveFailed := true } }
      tick := t.tick }) ∧
  ((∀ (s : State) (f : Frame), Presents s 0x78 f →
    exec .saveSettings s = .next (withReply f .ok [] .nothing { s with store := {
      saving := some { count := 5, captured := capture s }
      image := s.store.image.map (fun i => { i with mark := false }) } })) ∧
  (∀ (s : State) (v : Saving), settled s = true → s.store.saving = some v →
    ∃ i, exec .saveCompletion s = .next { s with store := { saving := none, image := some i } } ∧
      i.contents = v.captured ∧ i.valid = true) ∧
  ∀ s : State, settled s = true → s.store.saving = none → exec .saveCompletion s = .next s)

/-! ## Clock monitor -/

/-- R20 to R22. In QUALIFYING a crystal cycle within 3 % of the nominal period adds 1 to the count of good cycles and any other sets it to 0; its period passes of
the second in progress and of the 2 s, past which it fails the crystal. In ON-CRYSTAL a cycle is one of the 32768 of the second; in ON-INTERNAL it does nothing. 2048
good cycles lead to ON-CRYSTAL; the end of the 2 s, and the loss of the crystal in ON-CRYSTAL, to ON-INTERNAL with CLOCK-FAIL. Count and elapsed time are discarded,
run-second and phase carried over. The unit of time, and which commands make it pass, are the model's choice (log entries 7 and 18). -/
def Obligations.ClockMonitorFollowsCrystal : Prop :=
  (∀ (s : State) (p : Nat), settled s = true →
    (s.timebase.monitor = .qualifying → s.timebase.goodCycles < 2048 → s.timebase.elapsed < qualifyingLimit →
      exec (.crystalCycleMeasured p) s = .next (if s.timebase.elapsed + p ≤ qualifyingLimit then
        { s with timebase := { s.timebase with
          goodCycles := if 97 * Config.nominalPeriod ≤ 100 * p ∧ 100 * p ≤ 103 * Config.nominalPeriod then s.timebase.goodCycles + 1 else 0
          elapsed := s.timebase.elapsed + p, phase := s.timebase.phase + p } }
      else { s with
        timebase := { s.timebase with monitor := .onInternal, goodCycles := 0, elapsed := 0, phase := s.timebase.phase + p }
        link := { s.link with flags := { s.link.flags with clockFail := true } } })) ∧
    (s.timebase.monitor = .onCrystal → exec (.crystalCycleMeasured p) s =
      .next { s with timebase := { s.timebase with phase := s.timebase.phase + Config.nominalPeriod } }) ∧
    (s.timebase.monitor = .onInternal → exec (.crystalCycleMeasured p) s = .next s)) ∧
  ((∀ s : State, settled s = true → s.timebase.monitor = .qualifying → s.timebase.goodCycles = 2048 →
    exec .qualificationComplete s = .next { s with timebase := { s.timebase with monitor := .onCrystal, goodCycles := 0, elapsed := 0 } }) ∧
  (∀ s : State, settled s = true → s.timebase.monitor = .qualifying → s.timebase.goodCycles < 2048 →
    qualifyingLimit - s.timebase.elapsed ≤ fullSecond - s.timebase.phase →
    exec .qualificationTimeout s = .next { s with
      timebase := { s.timebase with monitor := .onInternal, goodCycles := 0, elapsed := 0,
                                    phase := s.timebase.phase + (qualifyingLimit - s.timebase.elapsed) }
      link := { s.link with flags := { s.link.flags with clockFail := true } } }) ∧
  (∀ s : State, settled s = true → s.timebase.monitor = .onCrystal →
    exec .crystalEdgeLoss s = .next { s with
      timebase := { s.timebase with monitor := .onInternal, goodCycles := 0, elapsed := 0 }
      link := { s.link with flags := { s.link.flags with clockFail := true } } }))

/-- R23, R24. CLOCK-RETRY is taken in ON-INTERNAL and refused with STATE in QUALIFYING and ON-CRYSTAL. SET-TIME makes the wall time W and the set mark yes;
the run-second and everything else stay. -/
def Obligations.TimebaseRequests : Prop :=
  (∀ (s : State) (f : Frame), Presents s 0x21 f →
    exec .clockRetry s = .next (if s.timebase.monitor = .onInternal then
      withReply f .ok [] .nothing { s with timebase := { s.timebase with monitor := .qualifying, goodCycles := 0, elapsed := 0 } }
    else withReply f .state [] .nothing s)) ∧
  (∀ (s : State) (f : Frame), Presents s 0x20 f → s.timebase.runSecond ≤ Config.maxRunSecond →
    ∃ t, exec .setTime s = .next t ∧ wallTime t = u32 f.body 0 ∧ t.timebase.wallOffset < 4294967296 ∧
      t = withReply f .ok [] .nothing { s with timebase := { s.timebase with wallOffset := t.timebase.wallOffset, timeSet := true } })

/-! ## Daylight Gate -/

/-- R30. SET-DAYLIGHT under source CONSOLE: a value other than the one held starts settling, or is settled at once when the settle time is 0;
the value held changes nothing. Under source POINT it is refused with STATE, before that a value other than DAY or NIGHT with BAD-VALUE, and before that
another body length with BAD-LENGTH. Under source CONSOLE no outstation entry and no failed visit changes the gate. -/
def Obligations.SetDaylightSetsGate : Prop :=
  (∀ (s : State) (f : Frame), Presents s 0x23 f →
    exec .setDaylight s = .next (
      if 2 ≤ u8 f.body 0 then withReply f .badValue [] .nothing s
      else if s.gate.source ≠ .console then withReply f .state [] .nothing s
      else
        let v : GateValue := if u8 f.body 0 = 0 then .day else .night
        withReply f .ok [] .nothing (if s.gate.value = v then s else
          { s with gate := { s.gate with value := v, settling := decide (s.gate.settleTime ≠ 0), count := s.gate.settleTime } }))) ∧
  (∀ (s : State) (f : Frame), settled s = true → s.link.requests.head? = some f → f.kind.toNat = 0x23 → mayServe s = true →
    f.body.length ≠ 1 → exec .setDaylight s = .next (withReply f .badLength [] .nothing s)) ∧
  ∀ s : State, s.gate.source = .console →
    (∀ (b : Block) (e : Entry), (applyOne b e s).gate = s.gate) ∧ ∀ (l : FieldLine) (n : Nat), (visitFailed l n s).gate = s.gate

/-- R31. SET-DAYLIGHT-SOURCE with valid fields and, under POINT, a defined outstation: the source and the settle time are replaced; a different source
sets the gate to UNKNOWN with settling clear, the same source keeps value, flag and count. -/
def Obligations.SetDaylightSourceReplacesSource : Prop :=
  ∀ (s : State) (f : Frame) (v : GateSource), Presents s 0x22 f → u16 f.body 3 ≤ 3600 →
    ((v = .console ∧ u8 f.body 0 = 0 ∧ u8 f.body 1 = 0 ∧ u8 f.body 2 = 0) ∨
      (v = .point (u8 f.body 1) (u8 f.body 2) ∧ u8 f.body 0 = 1 ∧ 1 ≤ u8 f.body 1 ∧ u8 f.body 1 ≤ 120 ∧ u8 f.body 2 ≤ 63 ∧
        (stationOf s (u8 f.body 1)).isSome = true)) →
    exec .setDaylightSource s = .next (withReply f .ok [] .nothing { s with gate :=
      if s.gate.source = v then { s.gate with settleTime := u16 f.body 3 }
      else { value := .unknown, settling := false, count := 0, source := v, settleTime := u16 f.body 3 } })

/-! ## Field lines -/

/-- R36, R38. A line in POLLING that waits out the guard begins its poll once it has been quiet for the guard's bit times, and not before. The poll of an exchange
carries the outstation's address and no body: a POLL carries the last accepted toggle; a SNAPSHOT carries MORE in a continuation, and then the toggle that is the
number of snapshot blocks accepted, modulo 2. The driver enable is asserted over the poll's 60 bit times; with the last of them the driver is released and the
reply is awaited. Bit times that pass on a line in any other state count toward its guard too. That POLL_SEND counts bit times, and `driven` as a record of the
output, are the model's choice (log entries 7 and 8). -/
def Obligations.PollIsDrivenAfterGuard : Prop :=
  (∀ (s : State) (l : FieldLine) (q : Nat), settled s = true → (lineOf s l).state ≠ .polling → (lineOf s l).exchange = .guardWait →
    ∃ t, exec (.pollSend l q) s = .next t ∧ t = { s with lines := t.lines } ∧ (∀ m, m ≠ l → lineOf t m = lineOf s m) ∧
      lineOf t l = { lineOf s l with quiet := (lineOf s l).quiet + q }) ∧
  (∀ (s : State) (l : FieldLine) (q : Nat) (v : Visit) (st : Station), settled s = true → (lineOf s l).state = .polling →
    (lineOf s l).exchange = .guardWait → (lineOf s l).visit = some v → stationOf s v.station = some st →
    ∃ t, exec (.pollSend l q) s = .next t ∧ t = { s with lines := t.lines } ∧ (∀ m, m ≠ l → lineOf t m = lineOf s m) ∧
      let poll := fieldFrame st.settings.address (match v.kind with
        | .poll => encControl .poll st.toggle false
        | .snapshot => encControl .snapshot (v.decided && decide (v.snapshots % 2 = 1)) v.decided) []
      let sent := q - ((lineOf s l).settings.guard - (lineOf s l).quiet)
      lineOf t l =
        if (lineOf s l).quiet + q < (lineOf s l).settings.guard then { lineOf s l with quiet := (lineOf s l).quiet + q }
        else if sent < 60 then { lineOf s l with
          quiet := max (lineOf s l).quiet (lineOf s l).settings.guard, exchange := .sending poll sent, driverEnable := true }
        else { lineOf s l with
          quiet := max (lineOf s l).quiet (lineOf s l).settings.guard, exchange := .reply [], driverEnable := false, driven := poll }) ∧
  ∀ (s : State) (l : FieldLine) (q bits : Nat) (poll : List Byte), settled s = true → (lineOf s l).state = .polling →
    (lineOf s l).exchange = .sending poll bits →
    ∃ t, exec (.pollSend l q) s = .next t ∧ t = { s with lines := t.lines } ∧ (∀ m, m ≠ l → lineOf t m = lineOf s m) ∧
      lineOf t l = (if bits + q < 10 * poll.length then { lineOf s l with exchange := .sending poll (bits + q), driverEnable := true }
        else { lineOf s l with exchange := .reply [], driverEnable := false, driven := poll })

/-- R37, R38. A character that arrives while a reply is awaited or received joins it, unless the reply already holds all its characters or its length
character exceeds 240; any other character, one before the end of the poll among them, is discarded. Each starts the guard's quiet time again. -/
def Obligations.FieldCharacterIsReceived : Prop :=
  ∀ (s : State) (l : FieldLine) (b : Byte), settled s = true →
    ∃ t, exec (.fieldCharacterReceived l b) s = .next t ∧ t = { s with lines := t.lines } ∧
      (∀ m, m ≠ l → lineOf t m = lineOf s m) ∧
      (∀ chars, (lineOf s l).state = .polling → (lineOf s l).exchange = .reply chars → replyHeld chars = false →
        replyTooLong chars = false →
          lineOf t l = { lineOf s l with quiet := 0, quietSecond := false, exchange := .reply (chars ++ [b]) }) ∧
      (∀ chars, (lineOf s l).exchange = .reply chars → replyHeld chars = true ∨ replyTooLong chars = true →
        lineOf t l = { lineOf s l with quiet := 0, quietSecond := false }) ∧
      ((lineOf s l).state ≠ .polling ∨ (lineOf s l).exchange = .guardWait ∨ (∃ poll bits, (lineOf s l).exchange = .sending poll bits) →
        lineOf t l = { lineOf s l with quiet := 0, quietSecond := false })

/-- R37, R39, R45. A failed attempt, with attempts left, is followed by the next attempt with the same poll, and the outstation's last failure cause is
the attempt's: TIMEOUT when no character came, FORM when the reply stopped short, CHECK when its CRC is wrong. Nothing else changes. -/
def Obligations.FailedAttemptIsRetried : Prop :=
  ∀ (s : State) (l : FieldLine) (chars : List Byte) (v : Visit) (st : Station) (c : Instr) (cause : FailureCause),
    Awaits s l chars v st → v.attempt ≤ (lineOf s l).settings.retries →
    (c = .replyTimeout l ∧ chars = [] ∧ cause = .timeout) ∨
      (c = .incompleteReplyGap l ∧ chars ≠ [] ∧ replyHeld chars = false ∧ cause = .form) ∨
      (c = .replyComplete l ∧ replyHeld chars = true ∧ replyCrcGood chars = false ∧ cause = .check) →
    ∃ t, exec c s = .next t ∧ t = { s with directory := t.directory, lines := t.lines } ∧
      t.directory = (modStation v.station (fun x => { x with lastCause := some cause }) s).directory ∧
      lineOf t l = { lineOf s l with
        quiet := 0, quietSecond := false, exchange := .guardWait, driverEnable := false, visit := some { v with attempt := v.attempt + 1 } } ∧
      ∀ m, m ≠ l → lineOf t m = lineOf s m

/-- R46, R126, R29. The last attempt of an undecided visit fails, and the failure count reaches the silence threshold: the outstation becomes SILENT, and its
incident slot opens and gathers every unseen ACTIVE, RESTORING or RESTORED record of its assets that is no member; every other record stays as it was. A gate that
follows one of its points becomes UNKNOWN. -/
def Obligations.SilenceOpensIncident : Prop :=
  ∀ (s : State) (l : FieldLine) (v : Visit) (st : Station), Awaits s l [] v st → Table.wf s.faults = true →
    (lineOf s l).settings.retries < v.attempt → v.decided = false → st.state ≠ .silent → st.failures < 15 →
    (lineOf s l).settings.silence ≤ st.failures + 1 →
    ∃ t, exec (.replyTimeout l) s = .next t ∧
      stationOf t v.station = some { st with state := .silent, failures := st.failures + 1, lastCause := some .timeout } ∧
      (slotOf t (stationSlot v.station)).unmarked = { slotOf s (stationSlot v.station) with
        state := .opened, seen := false, openedAt := some (now s), restoredAt := none, waiting := none
        members := (slotOf s (stationSlot v.station)).members + (stationCandidates s v.station).length } ∧
      (∀ n, n ≠ stationSlot v.station → (slotOf t n).unmarked = (slotOf s n).unmarked) ∧
      (∀ key r, recordOf s key = some r → ∃ q, recordOf t key = some q ∧ q.unmarked =
        if r.state ≠ .qualifying ∧ r.seen = false ∧ r.incident = none ∧
          (assetOf s (keyAsset key)).map (fun x => x.settings.station) = some v.station then
          { r with incident := some (stationSlot v.station), waiting := none }
        else r.unmarked) ∧
      (∀ p, s.gate.source = .point v.station p → t.gate.value = .unknown ∧ t.gate.settling = false ∧ t.gate.count = 0) ∧
      ((∀ p, s.gate.source ≠ .point v.station p) → t.gate = s.gate)

/-- R43, R44, R47, R61, R128. A good reply ends its exchange. A REPORT whose toggle differs from the last accepted one, and every SNAPSHOT block, is accepted: it
fills the slot that the line had reserved, at the end of the decode order, and its toggle becomes the last accepted one. A duplicate REPORT and NOTHING fill no
slot. An undecided visit's exchange succeeds: the outstation is ONLINE with no failures; one that was SILENT returns, so its incident slot is RESTORED and its
members are released. With MORE, and fewer than 4 blocks accepted, the visit goes on with a continuation; else it ends. -/
def Obligations.ReportIsAcceptedOnce : Prop :=
  (∀ (s : State) (l : FieldLine) (chars : List Byte) (v : Visit) (st : Station) (es : List Entry) (snap toggle more : Bool) (i : Nat),
    Awaits s l chars v st → replyHeld chars = true → st.state ≠ .silent →
    ((snap = false ∧ toggle = (!st.toggle) ∧ judgeReply v st.settings.address chars = .report es toggle more) ∨
      (snap = true ∧ judgeReply v st.settings.address chars = .snapshot es toggle more)) →
    reservedIndex s.intake.slots l = some i →
    ∃ t, exec (.replyComplete l) s = .next t ∧
      stationOf t v.station = some (if v.decided then { st with toggle := toggle, lastContact := some (now s) }
        else { st with state := .online, failures := 0, toggle := toggle, lastContact := some (now s) }) ∧
      t.intake.slots[i]? = some (.filled { line := l, station := v.station, snapshot := snap, entries := es, arrival := now s }) ∧
      t.intake.order = s.intake.order ++ [i] ∧ t.faults = s.faults ∧ t.link = s.link ∧ t.dispatch = s.dispatch ∧
      (if more = true ∧ v.accepted + 1 < 4 then
        (lineOf t l).visit = some { v with
          kind := if snap then .snapshot else .poll, attempt := 1, decided := true, accepted := v.accepted + 1
          snapshots := v.snapshots + snap.toNat } ∧
        (lineOf t l).exchange = .guardWait ∧ ((lineOf t l).state = .polling ∨ (lineOf t l).state = .awaitSlot)
      else ∀ w, (lineOf t l).visit = some w → w.decided = false ∧ w.attempt = 1)) ∧
  (∀ (s : State) (l : FieldLine) (chars : List Byte) (v : Visit) (st : Station),
    Awaits s l chars v st → replyHeld chars = true → st.state ≠ .silent →
    (judgeReply v st.settings.address chars = .nothing ∨
      ∃ es more, judgeReply v st.settings.address chars = .report es st.toggle more) →
    ∃ t, exec (.replyComplete l) s = .next t ∧ t.intake.order = s.intake.order ∧
      (∀ (i : Nat) (b : Block), t.intake.slots[i]? = some (.filled b) ↔ s.intake.slots[i]? = some (.filled b)) ∧
      stationOf t v.station = some (if v.decided then { st with lastContact := some (now s) }
        else { st with state := .online, failures := 0, lastContact := some (now s) }) ∧
      t.faults = s.faults ∧ t.link = s.link ∧ t.dispatch = s.dispatch ∧
      ∀ w, (lineOf t l).visit = some w → w.decided = false ∧ w.attempt = 1) ∧
  ∀ (s : State) (l : FieldLine) (chars : List Byte) (v : Visit) (st : Station),
    Awaits s l chars v st → replyHeld chars = true → v.decided = false → st.state = .silent →
    (∀ cause, judgeReply v st.settings.address chars ≠ .failed cause) → Table.wf s.faults = true →
    ∃ t, exec (.replyComplete l) s = .next t ∧
      (stationOf t v.station).map (fun x => (x.state, x.failures)) = some (.online, 0) ∧
      (slotOf t (stationSlot v.station)).state = .restored ∧ (slotOf t (stationSlot v.station)).restoredAt = some (now s) ∧
      (slotOf t (stationSlot v.station)).members =
        (slotOf s (stationSlot v.station)).members - (memberKeys s (stationSlot v.station)).length ∧
      ∀ key r, recordOf s key = some r → ∃ q, recordOf t key = some q ∧ q.unmarked =
        if r.incident = some (stationSlot v.station) then { r with incident := none, waiting := none } else r.unmarked

/-- R50, R49, R51, R54. A sweep starts, at the tick that leaves a RESTING line's interval count at 0 and at START-LINE: the visit begun is of the enabled
outstation of the line with the lowest address, a SNAPSHOT unless it is ONLINE, and the interval count is reloaded. With no enabled outstation a CONTINUOUS line
rests, between sweeps, and a SINGLE line stops. A SINGLE line stops at the visit boundary that ends its sweep; that its between-sweeps mark is then clear is the
model's choice (log entry 24). START-LINE is answered OK for a STOPPED line, STATE for another, and BAD-VALUE for a field that names no line. -/
def Obligations.SweepStarts : Prop :=
  (∀ (s : State) (l : FieldLine) (c : Instr), (lineOf s l).list = [] →
    (c = .sweepIntervalExpiry l ∧ l ∈ s.tick.lines ∧ (lineOf s l).state = .resting ∧ (lineOf s l).interval ≤ 1) ∨
      (c = .startLine ∧ (lineOf s l).state = .stopped ∧ ∃ f, Presents s 0x31 f ∧ decEnum fieldLines (u8 f.body 0) = some l) →
    ∃ t, exec c s = .next t ∧ (lineOf t l).settings = (lineOf s l).settings ∧ t.directory = s.directory ∧ t.faults = s.faults ∧
      ((lineOf t l).visit = none →
        ((lineOf s l).settings.mode = .continuous →
          (lineOf t l).state = .resting ∧ (lineOf t l).between = true ∧ (lineOf t l).interval = (lineOf s l).settings.interval) ∧
        ((lineOf s l).settings.mode = .single →
          (lineOf t l).state = .stopped ∧ (lineOf t l).between = false ∧ (lineOf t l).interval = 0) ∧
        ∀ e ∈ s.directory.stations, e.2.settings.line = l → e.2.settings.enabled = true → e.2.settings.address = 0) ∧
      (∀ v, (lineOf t l).visit = some v →
        v.origin = .sweep ∧ v.attempt = 1 ∧ v.accepted = 0 ∧ v.decided = false ∧ (lineOf t l).between = false ∧
        (lineOf t l).interval = (lineOf s l).settings.interval ∧
        ((lineOf t l).state = .polling ∨ (lineOf t l).state = .awaitSlot) ∧
        ∃ st, (v.station, st) ∈ s.directory.stations ∧ st.settings.line = l ∧ st.settings.enabled = true ∧
          (lineOf t l).sweepPos = st.settings.address ∧ v.kind = (if st.state = .online then .poll else .snapshot) ∧
          ∀ e ∈ s.directory.stations, e.2.settings.line = l → e.2.settings.enabled = true → 0 < e.2.settings.address →
            st.settings.address ≤ e.2.settings.address)) ∧
  (∀ (s : State) (l : FieldLine), (lineOf s l).list = [] → (lineOf s l).between = false → (lineOf s l).settings.mode = .single →
    (∀ e ∈ s.directory.stations, e.2.settings.line = l → e.2.settings.enabled = true → e.2.settings.address ≤ (lineOf s l).sweepPos) →
    ∃ t, visitBoundary l s = t ∧ t = { s with lines := t.lines } ∧ (∀ m, m ≠ l → lineOf t m = lineOf s m) ∧
      lineOf t l = { lineOf s l with state := .stopped, visit := none, interval := 0 }) ∧
  ∀ (s : State) (f : Frame), Presents s 0x31 f →
    (∀ l, decEnum fieldLines (u8 f.body 0) = some l →
      ((lineOf s l).state ≠ .stopped → exec .startLine s = .next (withReply f .state [] .nothing s)) ∧
      ((lineOf s l).state = .stopped → ∃ t, exec .startLine s = .next (withReply f .ok [] .nothing t) ∧
        t = { s with lines := t.lines, intake := t.intake } ∧ ∀ m, m ≠ l → lineOf t m = lineOf s m)) ∧
    (4 ≤ u8 f.body 0 → exec .startLine s = .next (withReply f .badValue [] .nothing s))

/-- R55. STOP-LINE stops the line: its visit is abandoned, a poll being sent is cut short and the driver released, its interrogation list emptied, the slot it had
reserved FREE again and its request for one withdrawn; the directory, and so its outstations' toggles, counts and states, stay. A STOPPED line changes nothing. -/
def Obligations.StopLineStops : Prop :=
  ∀ (s : State) (f : Frame) (l : FieldLine), Presents s 0x32 f → decEnum fieldLines (u8 f.body 0) = some l →
    ∃ t, exec .stopLine s = .next (withReply f .ok [] .nothing t) ∧
      ((lineOf s l).state = .stopped → t = s) ∧
      ((lineOf s l).state ≠ .stopped →
        t = { s with lines := t.lines, intake := t.intake } ∧
        (lineOf t l).state = .stopped ∧ (lineOf t l).visit = none ∧ (lineOf t l).list = [] ∧
        (lineOf t l).settings = (lineOf s l).settings ∧ (lineOf t l).driverEnable = false ∧ (lineOf t l).exchange = .guardWait ∧
        (lineOf t l).driven = (lineOf s l).driven ∧
        (∀ m, m ≠ l → lineOf t m = lineOf s m) ∧ l ∉ t.intake.waiting ∧ .reserved l ∉ t.intake.slots ∧
        t.intake.order = s.intake.order ∧ t.intake.decoder = s.intake.decoder ∧
        ∀ (i : Nat) (v : IntakeSlot), s.intake.slots[i]? = some v → t.intake.slots[i]? = some (if v = .reserved l then .free else v))

/-- R34, R52. SET-LINE with every field in its range replaces the eight settings of a STOPPED line, and is refused with BUSY for one that is not.
SET-SWEEP-MODE stores the mode of one line, in any line state, and changes nothing else. That the quiet bit times a line has counted keep their number under a new
bit rate is the model's choice (log entry 23). -/
def Obligations.LineSettingsAreReplaced : Prop :=
  (∀ (s : State) (f : Frame) (l : FieldLine) (v : LineSettings), Presents s 0x30 f →
    decEnum fieldLines (u8 f.body 0) = some l → decEnum bitRates (u8 f.body 1) = some v.bitRate →
    u16 f.body 2 = v.replyTimeout → u8 f.body 4 = v.guard → u8 f.body 5 = v.retries → u8 f.body 6 = v.silence →
    u16 f.body 7 = v.interval → decEnum sweepModes (u8 f.body 9) = some v.mode → decEnum booleans (u8 f.body 10) = some v.autoStart →
    20 ≤ v.replyTimeout → v.replyTimeout ≤ 2000 → v.guard ≤ 31 → v.retries ≤ 7 → 1 ≤ v.silence → v.silence ≤ 15 → v.interval ≤ 600 →
    ∃ t, exec .setLine s = .next t ∧
      ((lineOf s l).state ≠ .stopped → t = withReply f .busy [] .nothing s) ∧
      ((lineOf s l).state = .stopped →
        t = withReply f .ok [] .nothing { s with lines := t.lines } ∧ lineOf t l = { lineOf s l with settings := v } ∧
        ∀ m, m ≠ l → lineOf t m = lineOf s m)) ∧
  (∀ (s : State) (f : Frame) (l : FieldLine) (m : SweepMode), Presents s 0x33 f → decEnum fieldLines (u8 f.body 0) = some l →
    decEnum sweepModes (u8 f.body 1) = some m →
    ∃ t, exec .setSweepMode s = .next t ∧ t = withReply f .ok [] .nothing { s with lines := t.lines } ∧
      lineOf t l = { lineOf s l with settings := { (lineOf s l).settings with mode := m } } ∧
      ∀ k, k ≠ l → lineOf t k = lineOf s k)

/-- R53, R49. INTERROGATE of a defined, enabled outstation on a running line: the outstation joins the list as its newest entry, unless it is listed already (OK,
no change) or the list holds 4 (FULL). On a RESTING line the addition is a visit boundary: the oldest entry leaves the list, and a visit of origin LIST to it begins
with a SNAPSHOT. A STOPPED line or a disabled outstation is answered STATE, an undefined outstation NOT-FOUND, a number outside 1 to 120 BAD-VALUE. -/
def Obligations.InterrogateJoinsList : Prop :=
  (∀ (s : State) (f : Frame) (st : Station), Presents s 0x34 f → 1 ≤ u8 f.body 0 → u8 f.body 0 ≤ 120 →
    stationOf s (u8 f.body 0) = some st →
    let c := lineOf s st.settings.line
    ((c.state = .stopped ∨ st.settings.enabled = false) → exec .interrogate s = .next (withReply f .state [] .nothing s)) ∧
    (st.settings.enabled = true → c.state ≠ .stopped →
      (u8 f.body 0 ∈ c.list → exec .interrogate s = .next (withReply f .ok [] .nothing s)) ∧
      (u8 f.body 0 ∉ c.list → 4 ≤ c.list.length → exec .interrogate s = .next (withReply f .full [] .nothing s)) ∧
      (u8 f.body 0 ∉ c.list → c.list.length < 4 →
        ∃ t, exec .interrogate s = .next (withReply f .ok [] .nothing t) ∧
          t = { s with lines := t.lines, intake := t.intake } ∧ (∀ m, m ≠ st.settings.line → lineOf t m = lineOf s m) ∧
          (c.state ≠ .resting → t.intake = s.intake ∧ lineOf t st.settings.line = { c with list := c.list ++ [u8 f.body 0] }) ∧
          (c.state = .resting → ∀ n rest, c.list ++ [u8 f.body 0] = n :: rest →
            (lineOf t st.settings.line).list = rest ∧ (lineOf t st.settings.line).sweepPos = c.sweepPos ∧
            (lineOf t st.settings.line).visit = some { station := n, origin := .list, kind := .snapshot } ∧
            (((lineOf t st.settings.line).state = .polling ∧ .reserved st.settings.line ∈ t.intake.slots ∧
                (lineOf t st.settings.line).exchange = .guardWait) ∨
              ((lineOf t st.settings.line).state = .awaitSlot ∧ st.settings.line ∈ t.intake.waiting)))))) ∧
  ∀ (s : State) (f : Frame), Presents s 0x34 f →
    (1 ≤ u8 f.body 0 → u8 f.body 0 ≤ 120 → stationOf s (u8 f.body 0) = none → exec .interrogate s = .next (withReply f .notFound [] .nothing s)) ∧
    (u8 f.body 0 = 0 ∨ 120 < u8 f.body 0 → exec .interrogate s = .next (withReply f .badValue [] .nothing s))

/-! ## Intake and Decoder -/

/-- R60. With a FREE slot and a line waiting, a grant reserves a FREE slot for the head of the wait list, which leaves the list and enters POLLING. -/
def Obligations.GrantServesHeadOfWaitList : Prop :=
  ∀ (s : State) (l : FieldLine) (rest : List FieldLine), s.intake.waiting = l :: rest → .free ∈ s.intake.slots →
    ∃ t i, exec .slotGrant s = .next t ∧ s.intake.slots[i]? = some .free ∧
      t = { s with intake := { s.intake with slots := s.intake.slots.set i (.reserved l), waiting := rest }, lines := t.lines } ∧
      lineOf t l = { lineOf s l with state := .polling, exchange := .guardWait, driverEnable := false } ∧
      ∀ m, m ≠ l → lineOf t m = lineOf s m

/-- R62, R63, R67, R69. The IDLE Decoder takes the head of the decode order and starts at the block's first entry; and so it does before any command but a part of a
tick, a SLOT_GRANT or a reset (the model's way to 'whenever', log entry 5). It moves on by one entry at each step, whatever
the entry does; after the last entry the slot is FREE and the Decoder IDLE. Nothing else of the intake changes, nor lines, clock or store. An entry of a SILENT or
undefined outstation changes nothing else at all. -/
def Obligations.DecoderTakesBlocksInOrder : Prop :=
  (∀ (s : State) (i : Nat) (rest : List Nat), s.tick = {} → grantDue s.intake = false → s.intake.decoder = .idle → s.intake.order = i :: rest →
    exec .decoderTakeBlock s = .next { s with intake := { s.intake with order := rest, decoder := .decoding i 0 } } ∧
    settle s = { s with intake := { s.intake with order := rest, decoder := .decoding i 0 } }) ∧
  ∀ (s : State) (i n : Nat) (b : Block), settled s = true → s.intake.decoder = .decoding i n →
    s.intake.slots[i]? = some (.filled b) → n < b.entries.length →
    ∃ t, exec .applyEntry s = .next t ∧
      t.intake = (if n + 1 < b.entries.length then { s.intake with decoder := .decoding i (n + 1) }
        else { s.intake with slots := s.intake.slots.set i .free, decoder := .idle }) ∧
      t.lines = s.lines ∧ t.timebase = s.timebase ∧ t.store = s.store ∧ t.tick = s.tick ∧ t.pending = s.pending ∧
      ((∀ st, stationOf s b.station = some st → st.state = .silent) → t = { s with intake := t.intake })

/-- R63 to R65, R68, R73 to R76, R79, R80, R84 to R86, R92. What an entry of an outstation that is not SILENT, for a point that is mapped and does not set the gate,
comes to. SUPPLY, DOOR and DETECT make their observation; an AUX reading is stored and compared with pixel_limit; a MAIN reading is stored, and then compared with
day_limit, held, or judged against the reference, with the observations of its band. A SUPPLY entry of state 0 creates the MAINS-LOST record of an asset that has
none: QUALIFYING, present, with the terms of the profile as it stands. -/
def Obligations.EntriesReachRecords : Prop :=
  (∀ (s : State) (i n a : Nat) (b : Block) (st : Station) (e : Entry) (role : Role) (x : Asset), settled s = true →
    s.intake.decoder = .decoding i n → s.intake.slots[i]? = some (.filled b) → b.entries[n]? = some e →
    stationOf s b.station = some st → st.state ≠ .silent → s.gate.source ≠ .point b.station e.point →
    Table.find st.pointMap e.point = some (a, role) → assetOf s a = some x →
    ∃ t, exec .applyEntry s = .next t ∧
      (∀ v edges, e.data = .digital v edges →
        (role = .supply → { t with intake := s.intake } = observe a .mainsLost (decide (v = 0)) 0 s) ∧
        (role = .door → { t with intake := s.intake } = observe a .doorOpen (decide (v ≠ 0)) 0 s) ∧
        (role = .detect →
          let excess := (if b.snapshot then 0 else edges) - (assetProfile s a).edgeAllowance
          { t with intake := s.intake } = observe a .loopChatter (decide (excess ≠ 0)) excess s)) ∧
      (∀ v, e.data = .analogue v →
        (role = .aux → { t with intake := s.intake } =
          observe a .pixelFault (decide ((assetProfile s a).pixelLimit ≤ v)) 0 (modAsset a (fun x => { x with lastAux := some v }) s)) ∧
        (role = .main →
          let u := modAsset a (fun x => { x with lastMain := some v }) s
          let scaled := if x.settings.doubling then min 65535 (2 * v) else v
          let j := judge (assetProfile s a) x.reference scaled
          let lamps := lampsEstimate j.band j.deviation x.settings.lampCount
          let w := modAsset a (fun x => { x with reference := j.reference, lastBand := some j.band }) u
          { t with intake := s.intake } = match x.settings.kind with
            | .cabinet => u
            | .loop => observeAll a [⟨.loopOpen, decide (j.band = .failLow), 0⟩, ⟨.loopShort, decide (j.band = .failHigh), 0⟩,
                ⟨.loopDrift, decide (j.band = .low), 0⟩, ⟨.stuckPresent, decide (j.band = .high), 0⟩] w
            | .sign => observeAll a [⟨.signDark, decide (j.band = .failLow), 0⟩] w
            | .lampCircuit =>
              if s.gate.settling = true ∨ s.gate.value = .unknown then u
              else if s.gate.value = .day then observe a .dayBurning (decide ((assetProfile s a).dayLimit < scaled)) 0 u
              else writeEstimate (recordKey a .partialOut) lamps (writeEstimate (recordKey a .circuitDark) lamps
                (observeAll a [⟨.circuitDark, decide (j.band = .failLow), 0⟩, ⟨.partialOut, decide (j.band = .low), 0⟩,
                  ⟨.overcurrent, decide (j.band = .failHigh), 0⟩] (modAsset a (fun x => { x with lampsOut := some lamps }) w)))))) ∧
  ∀ (s : State) (i n a : Nat) (b : Block) (st : Station) (p edges : Nat) (k : Seconds), settled s = true →
    s.intake.decoder = .decoding i n → s.intake.slots[i]? = some (.filled b) →
    b.entries[n]? = some { point := p, data := .digital 0 edges } → stationOf s b.station = some st → st.state ≠ .silent →
    s.gate.source ≠ .point b.station p → Table.find st.pointMap p = some (a, .supply) →
    (assetOf s a).map (fun x => x.settings.station) = some b.station → recordOf s (recordKey a .mainsLost) = none →
    s.faults.length < 1024 → (assetProfile s a).confirmFail = k →
    ∃ t r, exec .applyEntry s = .next t ∧ t = { s with faults := t.faults, intake := t.intake } ∧
      recordOf t (recordKey a .mainsLost) = some r ∧ (∀ key, key ≠ recordKey a .mainsLost → recordOf t key = recordOf s key) ∧
      r.state = .qualifying ∧ r.observed = true ∧ r.timer = 0 ∧ r.created = now s ∧ r.terms.confirm = .time k ∧
      r.trail = [{ entered := .qualifying, time := now s }] ∧ r.incident = none ∧ r.confirmed = none ∧ r.evidence = 0

/-- R92 to R95, R97, R98, R101, R102, R105, R106: what an observation does to the record of its asset and condition. While it would be held it does nothing. With no
record an absent one does nothing; a present one creates a QUALIFYING record, whose evidence and window under COUNT are its weight and the chatter_window and which
confirms at once when the weight reaches chatter_count; in a full table it is dropped with TABLE-FULL. An absent one removes a QUALIFYING record under a confirm term as a
transient, takes an ACTIVE record to RESTORING, and of any other record sets observed alone. A present one adds its weight to the evidence of a COUNT record, which
confirms it at its term, returns a RESTORING record to ACTIVE, and a RESTORED one to QUALIFYING with its recurrence raised, from where a COUNT one whose weight reaches
chatter_count confirms at once. -/
def Obligations.ObservationsMoveRecords : Prop :=
  ∀ (s : State) (a w : Nat) (c : Condition) (present : Bool),
    (heldBy s a c ≠ .notHeld → observe a c present w s = s) ∧
    (heldBy s a c = .notHeld →
      (recordOf s (recordKey a c) = none → observe a c false w s = s) ∧
      (recordOf s (recordKey a c) = none → s.faults.length = 1024 →
        observe a c true w s = { s with link := { s.link with flags := { s.link.flags with tableFull := true } } }) ∧
      (recordOf s (recordKey a c) = none → s.faults.length < 1024 →
        let new := termsOf c (assetProfile s a)
        let created (evidence : Nat) (left : Option Seconds) : Record :=
          { state := .qualifying, observed := true, seen := false, escalated := false, recurrence := 0, incident := none, created := now s
            confirmed := none, restored := none, timer := 0, evidence := evidence, windowLeft := left, escTimer := 0, terms := new
            lampsOut := none, quality := none, trail := [⟨.qualifying, now s⟩], waiting := none }
        ∃ t, observe a c true w s = t ∧
          (∀ n, new.confirm = .time n → t = { s with faults := t.faults } ∧ recordOf t (recordKey a c) = some (created 0 none) ∧
            ∀ k, k ≠ recordKey a c → recordOf t k = recordOf s k) ∧
          (∀ n k, new.confirm = .count n k →
            (w < n → t = { s with faults := t.faults } ∧ recordOf t (recordKey a c) = some (created w (some k)) ∧
              ∀ k, k ≠ recordKey a c → recordOf t k = recordOf s k) ∧
            (n ≤ w → t = { s with faults := t.faults, incidents := t.incidents, dispatch := t.dispatch } ∧
              ∃ q, recordOf t (recordKey a c) = some q ∧ q.state = .active ∧ q.observed = true ∧ q.timer = 0 ∧ q.created = now s ∧
                q.confirmed = some (now s) ∧ q.evidence = w ∧ q.windowLeft = none ∧ q.terms = new ∧ q.recurrence = 0 ∧
                q.trail = [⟨.qualifying, now s⟩, ⟨.active, now s⟩]))) ∧
      ∀ r, recordOf s (recordKey a c) = some r →
        let new := termsOf c (assetProfile s a)
        let evidence := match r.terms.confirm with
          | .count _ _ => min 65535 (r.evidence + w)
          | .time _ => r.evidence
        let escalated := r.escalated ||
          (decide (new.escalateAfter ≠ 0) && decide (new.escalateAfter ≤ r.escTimer) && !r.seen && decide (r.incident = none))
        ∃ t, observe a c present w s = t ∧ t = { s with faults := t.faults, incidents := t.incidents, dispatch := t.dispatch } ∧
          (present = false →
            (r.state = .qualifying → r.incident = none → (∃ n, r.terms.confirm = .time n) → recordOf t (recordKey a c) = none ∧
              (∀ k, k ≠ recordKey a c → (recordOf t k).map Record.unmarked = (recordOf s k).map Record.unmarked) ∧
              ∀ n, (slotOf t n).unmarked = (slotOf s n).unmarked) ∧
            ((r.state = .qualifying ∧ ∃ n k, r.terms.confirm = .count n k) ∨ r.state = .restoring ∨ r.state = .restored →
              t = { s with faults := t.faults } ∧ recordOf t (recordKey a c) = some { r with observed := false }) ∧
            (r.state = .active → (recordOf t (recordKey a c)).map Record.unmarked = some { r with
              observed := false, state := .restoring, timer := 0, trail := addTrail r.trail ⟨.restoring, now s⟩, terms := new
              escalated := escalated, waiting := none })) ∧
          (present = true →
            (r.state = .qualifying → (∀ n k, r.terms.confirm = .count n k → evidence < n) →
              t = { s with faults := t.faults } ∧ recordOf t (recordKey a c) = some { r with observed := true, evidence := evidence }) ∧
            (r.state = .qualifying → (∃ n k, r.terms.confirm = .count n k ∧ n ≤ evidence) → ∃ q, recordOf t (recordKey a c) = some q ∧
              q.state = .active ∧ q.timer = 0 ∧ q.confirmed = some (now s) ∧ q.evidence = evidence ∧ q.windowLeft = none ∧
              q.escTimer = 0 ∧ q.escalated = false ∧ q.terms = new) ∧
            (r.state = .active → t = { s with faults := t.faults } ∧
              recordOf t (recordKey a c) = some { r with observed := true, evidence := evidence }) ∧
            (r.state = .restoring → (recordOf t (recordKey a c)).map Record.unmarked = some { r with
              observed := true, state := .active, timer := 0, trail := addTrail r.trail ⟨.active, now s⟩, terms := new
              evidence := evidence, escalated := escalated, waiting := none }) ∧
            (r.state = .restored →
              (∀ n, new.confirm = .time n → (recordOf t (recordKey a c)).map Record.unmarked = some { r with
                observed := true, state := .qualifying, recurrence := min 255 (r.recurrence + 1), timer := 0
                trail := addTrail r.trail ⟨.qualifying, now s⟩, terms := new, waiting := none }) ∧
              (∀ n k, new.confirm = .count n k → w < n → (recordOf t (recordKey a c)).map Record.unmarked = some { r with
                observed := true, state := .qualifying, recurrence := min 255 (r.recurrence + 1), timer := 0
                trail := addTrail r.trail ⟨.qualifying, now s⟩, terms := new, evidence := w, windowLeft := some k, waiting := none }) ∧
              (∀ n k, new.confirm = .count n k → n ≤ w → ∃ q, recordOf t (recordKey a c) = some q ∧ q.state = .active ∧ q.observed = true ∧
                q.timer = 0 ∧ q.confirmed = some (now s) ∧ q.evidence = w ∧ q.windowLeft = none ∧ q.terms = new ∧
                q.recurrence = min 255 (r.recurrence + 1) ∧
                q.trail = addTrail (addTrail r.trail ⟨.qualifying, now s⟩) ⟨.active, now s⟩))))

/-- R29, R64, R66. An entry that no asset takes, for its point is mapped to none or to a role of the other form, reaches the gate when it is a DIGITAL entry for the
daylight point, and sets it by its state; any other marks its outstation and sets UNMAPPED. -/
def Obligations.EntryReachesGateOrIsUnmapped : Prop :=
  ∀ (s : State) (i n : Nat) (b : Block) (st : Station) (e : Entry), settled s = true → s.intake.decoder = .decoding i n →
    s.intake.slots[i]? = some (.filled b) → b.entries[n]? = some e → stationOf s b.station = some st → st.state ≠ .silent →
    (∀ a role, Table.find st.pointMap e.point = some (a, role) → formMatches role e.data = false) →
    ∃ t, exec .applyEntry s = .next t ∧ t.faults = s.faults ∧ t.incidents = s.incidents ∧ t.dispatch = s.dispatch ∧
      (s.gate.source ≠ .point b.station e.point ∨ (∃ v, e.data = .analogue v) →
        t.gate = s.gate ∧ t.link = { s.link with flags := { s.link.flags with unmapped := true } } ∧
        stationOf t b.station = some { st with unmapped := true }) ∧
      (∀ v edges, s.gate.source = .point b.station e.point → e.data = .digital v edges →
        t.link = s.link ∧ t.directory = s.directory ∧ t.gate.value = (if v = 0 then .day else .night) ∧
        (s.gate.value = t.gate.value → t.gate = s.gate) ∧
        (s.gate.value ≠ t.gate.value → t.gate.count = s.gate.settleTime ∧ t.gate.settling = decide (s.gate.settleTime ≠ 0)))

/-! ## Reading classification -/

/-- R80, with R76, R77, R78 and R81. A judged reading: an unlearned asset learns a reading at or above learn_floor, with deviation 0. A learned one's deviation is the
difference times 10000, divided by the reference and truncated toward zero, within -10000 and 32767; its band is the first that holds of fail_low, low, fail_high and
high, else NORMAL; and its reference moves only in the NORMAL band, by the truncated quotient of the difference, or by 1 where that is 0, and so toward the reading
and never past it. The lamps-out estimate is every lamp in FAIL-LOW, else the negative deviation's share of the lamps, rounded half up, and 0 for any other
deviation. -/
def Obligations.JudgedReadingMovesReference : Prop :=
  (∀ (p : Profile) (r x : Nat),
    (r = 0 → (judge p r x).reference = (if p.learnFloor ≤ x then x else 0) ∧ (judge p r x).deviation = 0 ∧
      (judge p r x).band = (if p.learnFloor ≤ x then .normal else .failLow)) ∧
    (r ≠ 0 →
      (let d : Int := (((x : Int) - r) * 10000).tdiv r;
       -10000 ≤ d ∧ (judge p r x).deviation = (if 32767 < d then 32767 else d)) ∧
      (let d := (judge p r x).deviation
       (judge p r x).band = (if d ≤ p.failLow then .failLow else if d ≤ p.low then .low else if p.failHigh ≤ d then .failHigh
         else if p.high ≤ d then .high else .normal)) ∧
      -10000 ≤ (judge p r x).deviation ∧ (judge p r x).deviation ≤ 32767 ∧
      ((judge p r x).band ≠ .normal → (judge p r x).reference = r) ∧
      ((judge p r x).band = .normal →
        (let step : Int := ((x : Int) - r).tdiv ((2 : Int) ^ p.trackShift)
         ((judge p r x).reference : Int) = r + (if step ≠ 0 then step else if r < x then 1 else if x < r then -1 else 0)) ∧
        (r < x → r < (judge p r x).reference ∧ (judge p r x).reference ≤ x) ∧
        (x < r → x ≤ (judge p r x).reference ∧ (judge p r x).reference < r) ∧
        (x = r → (judge p r x).reference = r)))) ∧
  ∀ (b : Band) (d : Int) (n : Nat), lampsEstimate b d n ≤ n ∧
    (b = .failLow → lampsEstimate b d n = n) ∧
    (b ≠ .failLow → 0 ≤ d → lampsEstimate b d n = 0) ∧
    (b ≠ .failLow → d < 0 → -10000 ≤ d → (lampsEstimate b d n : Int) = (-d * n + 5000) / 10000)

/-! ## Console Link -/

/-- R166 to R168. In HUNT a character other than 0xA6 is discarded and 0xA6 starts a frame; in a frame that does not yet hold all its bytes a character joins it,
but for the second length byte of a length above 1000, with which the frame is discarded and LINK-FAULT set. A complete frame with a good CRC joins the
request intake, or sets OVERRUN when two wait; with a wrong CRC it is discarded with LINK-FAULT; and a gap inside an incomplete frame discards it with
LINK-FAULT. After each the receiver is in HUNT. -/
def Obligations.ConsoleFramesAreReceived : Prop :=
  (∀ (s : State) (b : Byte), settled s = true →
    (s.link.receiver = none → exec (.consoleCharacterReceived b) s =
      .next (if b = 0xA6#8 then { s with link := { s.link with receiver := some [b] } } else s)) ∧
    (∀ chars, s.link.receiver = some chars → rxComplete chars = false → exec (.consoleCharacterReceived b) s =
      .next (if chars.length = 2 ∧ 1000 < u16 (chars ++ [b]) 1 then
        { s with link := { s.link with receiver := none, flags := { s.link.flags with linkFault := true } } }
      else { s with link := { s.link with receiver := some (chars ++ [b]) } }))) ∧
  (∀ (s : State) (chars : List Byte), settled s = true → s.link.receiver = some chars →
    (rxComplete chars = true → exec .consoleFrameComplete s = .next (
      if rxGood chars = false then
        { s with link := { s.link with receiver := none, flags := { s.link.flags with linkFault := true } } }
      else if s.link.requests.length < 2 then
        { s with link := { s.link with receiver := none, requests := s.link.requests ++ [rxFrame chars] } }
      else { s with link := { s.link with receiver := none, flags := { s.link.flags with overrun := true } } })) ∧
    (rxComplete chars = false → exec .consoleGapExpiry s =
      .next { s with link := { s.link with receiver := none, flags := { s.link.flags with linkFault := true } } }))

/-- R176, R180, R167, R165. A console frame is received as it was sent: its characters are complete with the last of them and not before (how many there are is
read as log entry 6 says), their CRC is good, and kind, tag and body are read back. A character is a start bit, the 8 data bits least significant first, and a
stop bit; its data bits are read back whatever the stop bit; between and after a frame's characters the line is at the stop level (log entry 26). -/
def Obligations.ConsoleFrameRoundTrip : Prop :=
  (∀ f : Frame, f.body.length ≤ 1000 →
    rxComplete (frameChars f) = true ∧ rxGood (frameChars f) = true ∧ rxFrame (frameChars f) = f ∧
      ∀ n, n < (frameChars f).length → rxComplete ((frameChars f).take n) = false) ∧
  (∀ (b : Byte) (stop : Bool), (characterBits b).length = 10 ∧ (characterBits b).head? = some false ∧ (characterBits b).getLast? = some true ∧
    (∀ i, i < 8 → (characterBits b)[i + 1]? = some (b.getLsbD i)) ∧ readCharacter ((characterBits b).take 9 ++ [stop]) = b) ∧
  ∀ (k : Link) (i j : Nat),
    (k.transmitter = .idle ∨ 10 * (sendingChars k.transmitter).length ≤ i → txdLevel k i = true) ∧
    (∀ b, (sendingChars k.transmitter)[i]? = some b → j < 10 → some (txdLevel k (10 * i + j)) = (characterBits b)[j]?)

/-- R179, R180, R37. A field frame of an address, a control byte and a body of at most 240 bytes is held with its last character and not before, its CRC
is good, and address, control and body are read back. -/
def Obligations.FieldFrameRoundTrip : Prop :=
  ∀ (a : Nat) (c : Byte) (body : List Byte), a < 256 → body.length ≤ 240 →
    replyHeld (fieldFrame a c body) = true ∧ replyCrcGood (fieldFrame a c body) = true ∧ u8 (fieldFrame a c body) 1 = a ∧
      (fieldFrame a c body).getD 2 0#8 = c ∧ replyBody (fieldFrame a c body) = body ∧
      ∀ n, n < (fieldFrame a c body).length → replyHeld ((fieldFrame a c body).take n) = false

/-- R171, R159, R178, R168, R172. The idle transmitter takes the pending notice: a frame of kind HEAD with tag 0 and 15 body bytes; the notice is no longer
pending, and nothing else changes. When the last stop bit has gone the transmitter is IDLE; a reply's frame leaves the request intake, and what its request asked
to follow is due; a notice leaves the intake as it is. -/
def Obligations.TransmitterSendsAndFinishes : Prop :=
  (∀ (s : State) (x : Option Summary), settled s = true → s.dispatch.notice = some x → s.link.transmitter = .idle → s.link.after = .nothing →
    ∃ body : List Byte, body.length = 15 ∧ (x = none → body = List.replicate 15 0#8) ∧ (x.isSome = true → body.head? = some 1#8) ∧
      exec .headNoticeSend s = .next { s with
        dispatch := { s.dispatch with notice := none }
        link := { s.link with transmitter := .notice ⟨0x7F#8, 0#8, body⟩ (frameChars ⟨0x7F#8, 0#8, body⟩) } }) ∧
  ∀ (s : State) (f : Frame) (chars : List Byte) (after : AfterReply), settled s = true →
    (s.link.transmitter = .reply f chars after → exec .transmitComplete s =
      .next { s with link := { s.link with transmitter := .idle, requests := s.link.requests.tail, after := after } }) ∧
    (s.link.transmitter = .notice f chars → exec .transmitComplete s =
      .next { s with link := { s.link with transmitter := .idle } })

/-- R172. SET-CONSOLE-RATE stores another rate and is answered at the old one; the rate in force is answered OK and changes nothing; and when the reply
has been sent the line takes the stored rate, discarding a frame that is being received. -/
def Obligations.ConsoleRateChangesAfterReply : Prop :=
  (∀ (s : State) (f : Frame) (r : ConsoleRate), Presents s 0x71 f → decEnum consoleRates (u8 f.body 0) = some r →
    exec .setConsoleRate s = .next (if r = s.link.rate then withReply f .ok [] .nothing s
      else withReply f .ok [] .rateSwitch { s with link := { s.link with rate := r } })) ∧
  ∀ s : State, settled s = true → s.link.after = .rateSwitch →
    exec .consoleRateSwitch s = .next { s with link :=
      match s.link.receiver with
      | none => { s.link with lineRate := s.link.rate, after := .nothing }
      | some chars =>
        if rxComplete chars then { s.link with lineRate := s.link.rate, after := .nothing }
        else { s.link with lineRate := s.link.rate, after := .nothing, receiver := none, flags := { s.link.flags with linkFault := true } } }

/-! ## Requests in general -/

/-- R169, R170. Every request answers with one reply of its own kind and tag whose body begins with a result code, and a request answered with any other
result than OK changes nothing and sends no data. A frame whose kind is no request kind is answered BAD-KIND, which changes nothing else. -/
def Obligations.RefusedRequestChangesNothing : Prop :=
  (∀ (c : Instr) (code : Nat) (s : State) (f : Frame), (c, code) ∈ requestCommands → Presents s code f →
    ∃ t r data after, exec c s = .next (withReply f r data after t) ∧ (r ≠ .ok → t = s ∧ data = [] ∧ after = .nothing)) ∧
  ∀ (s : State) (f : Frame), settled s = true → s.link.requests.head? = some f → requestKind f.kind.toNat = none → mayServe s = true →
    exec .unknownKindRequest s = .next (withReply f .badKind [] .nothing s)

/-- R169, R171, R177. A body of another length than its kind's is answered BAD-LENGTH, and while the Settings Store is SAVING the kinds so marked are answered
BUSY; neither changes anything. While the transmitter sends or a notice is pending a request command serves nothing. That it then changes nothing, and so too where
the intake is empty, its oldest frame is of another kind, or what follows a reply is due, is the model's choice (log entries 2 and 16). -/
def Obligations.RequestsAreServedInTurn : Prop :=
  (∀ (c : Instr) (code : Nat) (s : State) (f : Frame) (k : RequestKind), (c, code) ∈ requestCommands → settled s = true →
    s.link.requests.head? = some f → f.kind.toNat = code → mayServe s = true → requestKind code = some k →
    (f.body.length ≠ k.length → exec c s = .next (withReply f .badLength [] .nothing s)) ∧
    (f.body.length = k.length → k.busySaving = true → s.store.saving.isSome = true →
      exec c s = .next (withReply f .busy [] .nothing s))) ∧
  (∀ (c : Instr) (code : Nat) (s : State), (c, code) ∈ requestCommands → settled s = true →
    (s.link.transmitter ≠ .idle ∨ s.dispatch.notice.isSome = true ∨ s.link.after ≠ .nothing ∨ s.link.requests = [] ∨
      ∃ f, s.link.requests.head? = some f ∧ f.kind.toNat ≠ code) →
    exec c s = .next s)

/-- R116, R117, R142, R143, R157, R158, R17. The reads with their fields in range, of a thing that exists, are answered OK and change nothing. -/
def Obligations.ReadsChangeNothing : Prop :=
  ∀ (s : State) (f : Frame) (c : Instr),
    (c = .readAsset ∧ Presents s 0x19 f ∧ u16 f.body 0 ≤ 4095 ∧ (assetOf s (u16 f.body 0)).isSome = true) ∨
    (c = .readProfile ∧ Presents s 0x1A f ∧ u8 f.body 0 ≤ 15) ∨
    (c = .readRecord ∧ Presents s 0x50 f ∧ u16 f.body 0 ≤ 4095 ∧ 1 ≤ u8 f.body 2 ∧ u8 f.body 2 ≤ 13 ∧
      (recordOf s (u16 f.body 0 * 16 + u8 f.body 2)).isSome = true) ∨
    (c = .listRecords ∧ Presents s 0x51 f ∧ u16 f.body 0 ≤ 4095 ∧ 1 ≤ u8 f.body 2 ∧ u8 f.body 2 ≤ 13 ∧
      1 ≤ u8 f.body 3 ∧ u8 f.body 3 ≤ 15 ∧ 1 ≤ u8 f.body 4 ∧ u8 f.body 4 ≤ 15) ∨
    (c = .readIncident ∧ Presents s 0x58 f ∧ 1 ≤ u8 f.body 0 ∧ u8 f.body 0 ≤ 248 ∧ u16 f.body 1 ≤ 4095 ∧ 1 ≤ u8 f.body 3 ∧
      u8 f.body 3 ≤ 13) ∨
    (c = .listIncidents ∧ Presents s 0x59 f ∧ 1 ≤ u8 f.body 0 ∧ u8 f.body 0 ≤ 248 ∧ u8 f.body 1 ∈ [2, 4, 6, 8, 10, 12, 14]) ∨
    (c = .peek ∧ Presents s 0x60 f) ∨
    (c = .listQueue ∧ Presents s 0x61 f ∧ 1 ≤ u8 f.body 0 ∧ u8 f.body 0 ≤ 192) →
    ∃ data, exec c s = .next (withReply f .ok data .nothing s)

/-- R174, R173. READ-STATUS answers with 40 body bytes, of which offset 1 is the set of sticky flags as they stood, and clears the six flags; nothing else
changes. -/
def Obligations.ReadStatusClearsFlags : Prop :=
  ∀ (s : State) (f : Frame), Presents s 0x70 f →
    ∃ data, exec .readStatus s = .next (withReply f .ok data .nothing { s with link := { s.link with flags := {} } }) ∧
      data.length = 39 ∧
      u8 data 0 = s.link.flags.linkFault.toNat + 2 * s.link.flags.overrun.toNat + 4 * s.link.flags.clockFail.toNat +
        8 * s.link.flags.tableFull.toNat + 16 * s.link.flags.saveFailed.toNat + 32 * s.link.flags.unmapped.toNat ∧
      u32 data 1 = s.timebase.runSecond % 4294967296 ∧ u32 data 5 = wallTime s ∧
      u16 data 32 = s.faults.length % 65536 ∧ u8 data 34 = s.dispatch.queue.length % 256

/-! ## Asset Directory -/

/-- R11, R12, R1, R128. DEFINE-STATION on STOPPED lines, with an address no other outstation of the line has, defines an undefined slot with the dynamic fields of a
new slot and an empty point map. Of a defined slot it replaces the settings and keeps the point map, and keeps the dynamic fields unless line or address change: then
they are a new slot's, and an outstation that was SILENT returns, so that its incident slot is RESTORED and its members are released. REMOVE-STATION of an outstation
on a STOPPED line, with an empty point map and not the daylight source, leaves the slot undefined and its incident slot FREE. -/
def Obligations.StationsAreDefinedAndRemoved : Prop :=
  (∀ (s : State) (f : Frame) (v : StationSettings), Presents s 0x10 f → 1 ≤ u8 f.body 0 → u8 f.body 0 ≤ 120 →
    decEnum fieldLines (u8 f.body 1) = some v.line → u8 f.body 2 = v.address → 1 ≤ v.address → v.address ≤ 30 →
    u8 f.body 3 = v.priority → 1 ≤ v.priority → v.priority ≤ 4 → decEnum booleans (u8 f.body 4) = some v.enabled →
    (lineOf s v.line).state = .stopped →
    (∀ e ∈ s.directory.stations, e.1 ≠ u8 f.body 0 → e.2.settings.line = v.line → e.2.settings.address ≠ v.address) →
    (stationOf s (u8 f.body 0) = none →
      ∃ t, exec .defineStation s = .next (withReply f .ok [] .nothing t) ∧
        t = { s with directory := { s.directory with stations := t.directory.stations } } ∧
        stationOf t (u8 f.body 0) = some { settings := v } ∧ ∀ n, n ≠ u8 f.body 0 → stationOf t n = stationOf s n) ∧
    (∀ st, stationOf s (u8 f.body 0) = some st → (lineOf s st.settings.line).state = .stopped → Table.wf s.faults = true →
      let moved := ¬ (v.line = st.settings.line ∧ v.address = st.settings.address)
      ∃ t, exec .defineStation s = .next (withReply f .ok [] .nothing t) ∧
        t = { s with
              directory := { s.directory with stations := t.directory.stations }
              faults := t.faults, incidents := t.incidents, dispatch := t.dispatch } ∧
        stationOf t (u8 f.body 0) = some (if moved then { settings := v, pointMap := st.pointMap } else { st with settings := v }) ∧
        (∀ n, n ≠ u8 f.body 0 → stationOf t n = stationOf s n) ∧
        (moved → st.state = .silent → (slotOf t (stationSlot (u8 f.body 0))).state = .restored ∧
          (slotOf t (stationSlot (u8 f.body 0))).restoredAt = some (now s) ∧
          ∀ key r, recordOf s key = some r → ∃ q, recordOf t key = some q ∧ q.unmarked =
            if r.incident = some (stationSlot (u8 f.body 0)) then { r with incident := none, waiting := none } else r.unmarked) ∧
        (¬ (moved ∧ st.state = .silent) →
          (∀ key, (recordOf t key).map Record.unmarked = (recordOf s key).map Record.unmarked) ∧
          (∀ n, (slotOf t n).unmarked = (slotOf s n).unmarked) ∧
          (v.priority = st.settings.priority → t.dispatch = s.dispatch)))) ∧
  (∀ (s : State) (f : Frame) (st : Station), Presents s 0x11 f → 1 ≤ u8 f.body 0 → u8 f.body 0 ≤ 120 →
    stationOf s (u8 f.body 0) = some st → (lineOf s st.settings.line).state = .stopped → st.pointMap = [] →
    (∀ p, s.gate.source ≠ .point (u8 f.body 0) p) →
    ∃ t, exec .removeStation s = .next (withReply f .ok [] .nothing t) ∧
      t = { s with directory := t.directory, faults := t.faults, incidents := t.incidents, dispatch := t.dispatch } ∧
      stationOf t (u8 f.body 0) = none ∧ (∀ n, n ≠ u8 f.body 0 → stationOf t n = stationOf s n) ∧
      (slotOf t (stationSlot (u8 f.body 0))).unmarked = {})

/-- R13, R14, R2, R3, R4, R6. DEFINE-ASSET of settings that the kind allows, on free points of a defined outstation, with no other supplier of the feeder, and with
every line it affects STOPPED, defines the asset unlearned, with no readings and no records, and fills the map entries of its points. Over a defined number it first
removes the old definition with its map entries. REMOVE-ASSET of an asset whose outstation's line is STOPPED leaves it undefined, its map entries empty and none of its
records standing, and the rest of the directory as it is; of a supplying CABINET it frees the feeder's slot and releases the members left. -/
def Obligations.AssetsAreDefinedAndRemoved : Prop :=
  (∀ (s : State) (f : Frame) (v : AssetSettings) (st : Station), Presents s 0x12 f → u16 f.body 0 ≤ 4095 →
    decEnum assetKinds (u8 f.body 2) = some v.kind → u8 f.body 3 = v.station → 1 ≤ v.station → v.station ≤ 120 →
    (∀ e ∈ [(4, v.points.main), (5, v.points.aux), (6, v.points.door), (7, v.points.supply), (8, v.points.detect)],
      u8 f.body e.1 = e.2.getD 255 ∧ ∀ p, e.2 = some p → p ≤ 63) →
    u8 f.body 9 = v.profile → v.profile ≤ 15 → u8 f.body 10 = v.priority → 1 ≤ v.priority → v.priority ≤ 4 →
    u8 f.body 11 = v.area → v.area ≤ 64 → u8 f.body 12 = v.feeder → v.feeder ≤ 64 → u8 f.body 13 = v.lampCount →
    decEnum booleans (u8 f.body 14) = some v.doubling → u8 f.body 15 ≤ 12 → v.label = (f.body.drop 16).take (u8 f.body 15) →
    (∀ ch ∈ v.label, 0x20 ≤ ch.toNat ∧ ch.toNat ≤ 0x7E) →
    (match v.kind with
      | .cabinet => v.points.main = none ∧ v.points.aux = none ∧ v.points.detect = none ∧
          (v.points.door.isSome = true ∨ v.points.supply.isSome = true) ∧ v.lampCount = 0 ∧ v.doubling = false
      | .lampCircuit => v.points.main.isSome = true ∧ v.points.aux = none ∧ v.points.door = none ∧ v.points.supply = none ∧
          v.points.detect = none ∧ 1 ≤ v.lampCount ∧ v.lampCount ≤ 60 ∧ v.doubling = false
      | .loop => v.points.main.isSome = true ∧ v.points.aux = none ∧ v.points.door = none ∧ v.points.supply = none ∧ v.feeder = 0 ∧
          v.lampCount = 0
      | .sign => v.points.main.isSome = true ∧ v.points.supply = none ∧ v.points.detect = none ∧ v.feeder = 0 ∧ v.lampCount = 0 ∧
          v.doubling = false) →
    ((rolePoints v.points).map Prod.fst).Nodup →
    stationOf s v.station = some st → (lineOf s st.settings.line).state = .stopped → Table.wf st.pointMap = true →
    (∀ e ∈ rolePoints v.points, ∀ o role, Table.find st.pointMap e.1 = some (o, role) → o = u16 f.body 0) →
    (v.kind = .cabinet → v.feeder ≠ 0 → ∀ e ∈ s.directory.assets, e.1 ≠ u16 f.body 0 → e.2.settings.kind = .cabinet →
      e.2.settings.feeder ≠ v.feeder) →
    (∀ x y, assetOf s (u16 f.body 0) = some x → stationOf s x.settings.station = some y → (lineOf s y.settings.line).state = .stopped) →
    ∃ t m, exec .defineAsset s = .next (withReply f .ok [] .nothing t) ∧
      t = { s with directory := t.directory, faults := t.faults, incidents := t.incidents, dispatch := t.dispatch } ∧
      assetOf t (u16 f.body 0) = some { settings := v } ∧ (∀ a, a ≠ u16 f.body 0 → assetOf t a = assetOf s a) ∧
      stationOf t v.station = some { st with pointMap := m } ∧
      (∀ e ∈ rolePoints v.points, Table.find m e.1 = some (u16 f.body 0, e.2)) ∧
      (assetOf s (u16 f.body 0) = none → t = { s with directory := t.directory } ∧
        ∀ p, p ∉ (rolePoints v.points).map Prod.fst → Table.find m p = Table.find st.pointMap p) ∧
      (∀ x, assetOf s (u16 f.body 0) = some x → (∀ c, recordOf t (recordKey (u16 f.body 0) c) = none) ∧
        (x.settings.station = v.station → ∀ p, p ∉ (rolePoints v.points).map Prod.fst →
          Table.find m p = (Table.find st.pointMap p).filter (fun e => decide (e.1 ≠ u16 f.body 0))))) ∧
  (∀ (s : State) (f : Frame) (x : Asset) (st : Station), Presents s 0x13 f → u16 f.body 0 ≤ 4095 →
    assetOf s (u16 f.body 0) = some x → stationOf s x.settings.station = some st → (lineOf s st.settings.line).state = .stopped →
    ∃ t, exec .removeAsset s = .next (withReply f .ok [] .nothing t) ∧
      t = { s with directory := t.directory, faults := t.faults, incidents := t.incidents, dispatch := t.dispatch } ∧
      assetOf t (u16 f.body 0) = none ∧ (∀ a, a ≠ u16 f.body 0 → assetOf t a = assetOf s a) ∧
      t.directory.profiles = s.directory.profiles ∧ t.directory.areas = s.directory.areas ∧
      (∀ n, n ≠ x.settings.station → stationOf t n = stationOf s n) ∧
      (∃ m, stationOf t x.settings.station = some { st with pointMap := m } ∧
        (Table.wf st.pointMap = true → ∀ p, Table.find m p = (Table.find st.pointMap p).filter (fun e => decide (e.1 ≠ u16 f.body 0)))) ∧
      (∀ c, recordOf t (recordKey (u16 f.body 0) c) = none) ∧
      t.incidents.storms = s.incidents.storms ∧
      (x.settings.kind = .cabinet → x.settings.feeder ≠ 0 → Table.wf s.faults = true →
        (slotOf t (feederSlot x.settings.feeder)).unmarked = {} ∧
        ∀ key r, recordOf s key = some r → keyAsset key ≠ u16 f.body 0 → r.incident = some (feederSlot x.settings.feeder) →
          ∃ q, recordOf t key = some q ∧ q.unmarked = { r with incident := none, waiting := none }))

/-- R15, R7, R177, R112 to R115, R16, R9. SET-PROFILE is refused with BAD-VALUE for every field outside its range and every ordering broken; else it stores the 18
fields, which READ-PROFILE then returns as they were carried. DEFERRED changes nothing else; IMMEDIATE takes up the new terms in the records of the profile's assets,
in ascending key order. A record that takes up terms: one QUALIFYING under a confirm term at or above its timer, or COUNT with its evidence at the new count, confirms;
a COUNT window spent removes it, else the window is recomputed; a RESTORING one at its new clear time enters RESTORED or is removed; any other adopts the terms, and
ACTIVE or RESTORING may escalate. SET-AREA stores settings in their ranges, threshold 0 with calm level 0 among them, and is refused with BAD-VALUE for others. -/
def Obligations.ProfilesAndAreasAreStored : Prop :=
  (∀ (s : State) (f : Frame), Presents s 0x14 f →
    let b := f.body
    let fits : Prop := u8 b 0 ≤ 15 ∧ (1 ≤ u16 b 1 ∧ u16 b 1 ≤ 3600) ∧ 1 ≤ u16 b 3 ∧ (1 ≤ u16 b 5 ∧ u16 b 5 ≤ 3600) ∧ 2 ≤ u8 b 7 ∧
      (10 ≤ u16 b 8 ∧ u16 b 8 ≤ 3600) ∧ u8 b 10 ≤ 15 ∧ (u16 b 11 = 0 ∨ 60 ≤ u16 b 11) ∧ u8 b 13 ≤ 1 ∧ u8 b 14 ≤ 1 ∧
      (-10000 ≤ s16 b 15 ∧ s16 b 15 ≤ -2) ∧ (s16 b 15 < s16 b 17 ∧ s16 b 17 ≤ -1) ∧ (1 ≤ s16 b 19 ∧ s16 b 19 ≤ 32766) ∧
      s16 b 19 < s16 b 21 ∧ (2 ≤ u8 b 23 ∧ u8 b 23 ≤ 8) ∧ 1 ≤ u16 b 24 ∧ 1 ≤ u16 b 28 ∧ (10 ≤ u16 b 30 ∧ u16 b 30 ≤ 3600)
    (¬ fits → exec .setProfile s = .next (withReply f .badValue [] .nothing s)) ∧
    (fits → ∃ p, encProfile p = b.drop 1 ∧
      let t : State := { s with directory := { s.directory with profiles := s.directory.profiles.set (u8 b 0) p } }
      (u8 b 13 = 0 → exec .setProfile s = .next (withReply f .ok [] .nothing t)) ∧
      (u8 b 13 = 1 → exec .setProfile s = .next (withReply f .ok [] .nothing
        ((recordKeys t (fun key _ => assetIs t key (fun x => decide (x.profile = u8 b 0)))).foldl takeUpRecord t))))) ∧
  (∀ (s : State) (f : Frame) (p : Profile), Presents s 0x1A f → s.directory.profiles[u8 f.body 0]? = some p → u8 f.body 0 ≤ 15 →
    exec .readProfile s = .next (withReply f .ok (encProfile p) .nothing s)) ∧
  (∀ (s : State) (a : Nat) (c : Condition) (r : Record), recordOf s (recordKey a c) = some r →
    let new := termsOf c (assetProfile s a)
    let due := match r.terms.confirm, new.confirm with
      | _, .time n => decide (n ≤ r.timer)
      | _, .count n _ => decide (n ≤ r.evidence)
    ∃ t, takeUpRecord s (recordKey a c) = t ∧ t = { s with faults := t.faults, incidents := t.incidents, dispatch := t.dispatch } ∧
      (r.state = .qualifying → due = true → ∃ q, recordOf t (recordKey a c) = some q ∧ q.state = .active ∧ q.terms = new ∧
        q.confirmed = some (now s) ∧ q.timer = 0) ∧
      (r.state = .qualifying → due = false → (∀ n w, new.confirm ≠ .count n w) → t = { s with faults := t.faults } ∧
        recordOf t (recordKey a c) = some { r with terms := new }) ∧
      (∀ n w n' w', r.state = .qualifying → due = false → r.terms.confirm = .count n w → new.confirm = .count n' w' →
        if w' ≤ w - r.windowLeft.getD 0 then recordOf t (recordKey a c) = none
        else t = { s with faults := t.faults } ∧
          recordOf t (recordKey a c) = some { r with terms := new, windowLeft := some (w' - (w - r.windowLeft.getD 0)) }) ∧
      (r.state = .restoring → new.clearTime ≤ r.timer →
        if (r.seen = false ∧ new.autoClose = true) ∨ (∃ n, r.incident = some n ∧ slotType n ≠ .outstation) then
          recordOf t (recordKey a c) = none
        else ∃ q, recordOf t (recordKey a c) = some q ∧ q.state = .restored ∧ q.restored = some (now s) ∧ q.terms = new ∧
          q.incident = r.incident) ∧
      (r.state = .active ∨ r.state = .restored ∨ (r.state = .restoring ∧ r.timer < new.clearTime) →
        (recordOf t (recordKey a c)).map Record.unmarked = some { r with
          terms := new, waiting := none
          escalated := r.escalated || (decide (r.state ≠ .restored) && decide (new.escalateAfter ≠ 0) &&
            decide (new.escalateAfter ≤ r.escTimer) && !r.seen && decide (r.incident = none) && decide (heldBy s a c = .notHeld)) })) ∧
  (∀ (s : State) (f : Frame), Presents s 0x15 f →
    let b := f.body
    let fits : Prop := 1 ≤ u8 b 0 ∧ u8 b 0 ≤ 64 ∧ 1 ≤ u8 b 5 ∧ u8 b 5 ≤ 4 ∧
      ((u16 b 1 = 0 ∧ u16 b 3 = 0) ∨ (3 ≤ u16 b 1 ∧ u16 b 1 ≤ 500 ∧ u16 b 3 < u16 b 1))
    (¬ fits → exec .setArea s = .next (withReply f .badValue [] .nothing s)) ∧
    (fits → ∃ t, exec .setArea s = .next (withReply f .ok [] .nothing t) ∧
      areaOf t (u8 b 0) = { stormThreshold := u16 b 1, calmLevel := u16 b 3, stormClass := u8 b 5 } ∧
      (∀ a, a ≠ u8 b 0 → areaOf t a = areaOf s a) ∧
      t = { s with directory := { s.directory with areas := t.directory.areas }, faults := t.faults, incidents := t.incidents,
                   dispatch := t.dispatch } ∧
      (∀ key, (recordOf t key).map Record.unmarked = (recordOf s key).map Record.unmarked) ∧
      t.incidents.storms = s.incidents.storms ∧ ∀ n, (slotOf t n).unmarked = (slotOf s n).unmarked))

/-- R17, R66, R87. READ-STATION of a defined outstation clears its unmapped-entry mark after reporting it, and changes nothing else. RELEARN of an asset that is
no CABINET sets its reference to 0, and changes nothing else; a CABINET is refused with STATE. -/
def Obligations.ReadStationAndRelearn : Prop :=
  (∀ (s : State) (f : Frame) (st : Station), Presents s 0x18 f → 1 ≤ u8 f.body 0 → u8 f.body 0 ≤ 120 →
    stationOf s (u8 f.body 0) = some st →
    ∃ t data, exec .readStation s = .next (withReply f .ok data .nothing t) ∧ data.getLast? = some (if st.unmapped then 1#8 else 0#8) ∧
      t = { s with directory := { s.directory with stations := t.directory.stations } } ∧
      stationOf t (u8 f.body 0) = some { st with unmapped := false } ∧ ∀ n, n ≠ u8 f.body 0 → stationOf t n = stationOf s n) ∧
  (∀ (s : State) (f : Frame) (x : Asset), Presents s 0x40 f → u16 f.body 0 ≤ 4095 → assetOf s (u16 f.body 0) = some x →
    ∃ t, exec .relearn s = .next t ∧
      (x.settings.kind = .cabinet → t = withReply f .state [] .nothing s) ∧
      (x.settings.kind ≠ .cabinet →
        t = withReply f .ok [] .nothing { s with directory := { s.directory with assets := t.directory.assets } } ∧
        assetOf t (u16 f.body 0) = some { x with reference := 0 } ∧ ∀ a, a ≠ u16 f.body 0 → assetOf t a = assetOf s a))

/-! ## Incidents, the queue and the ALERT output -/

/-- R141. BREAK-OUT of a FEEDER or AREA slot that is not FREE leaves it FREE and every member of it outside any incident, with its own state; of an
OUTSTATION or a FREE slot it is refused with STATE. -/
def Obligations.BreakOutFreesSlot : Prop :=
  ∀ (s : State) (f : Frame), Presents s 0x5A f → Table.wf s.faults = true → 1 ≤ u8 f.body 0 → u8 f.body 0 ≤ 248 →
    (u8 f.body 0 ≤ 120 ∨ (slotOf s (u8 f.body 0)).state = .free → exec .breakOut s = .next (withReply f .state [] .nothing s)) ∧
    (120 < u8 f.body 0 → (slotOf s (u8 f.body 0)).state ≠ .free →
      ∃ t, exec .breakOut s = .next (withReply f .ok [] .nothing t) ∧
        t = { s with faults := t.faults, incidents := t.incidents, dispatch := t.dispatch } ∧
        t.incidents.storms = s.incidents.storms ∧
        (slotOf t (u8 f.body 0)).unmarked = {} ∧ (∀ n, n ≠ u8 f.body 0 → (slotOf t n).unmarked = (slotOf s n).unmarked) ∧
        ∀ key r, recordOf s key = some r → ∃ q, recordOf t key = some q ∧ q.unmarked =
          (if r.incident = some (u8 f.body 0) then { r with incident := none, waiting := none } else r.unmarked))

/-- R154, R155, R140, R119. ACKNOWLEDGE of a record that is no member and needs a NEW item marks it seen; of one that needs a RESTORED item, it removes it. Of an
incident that needs a NEW item it marks slot and members seen; of a RESTORED one it frees the slot. What does not exist is answered NOT-FOUND, what needs another
item STATE, and a field outside its values BAD-VALUE. That a key whose record was removed and created anew names the new record is the model's choice (log
entry 27). -/
def Obligations.AcknowledgeRecord : Prop :=
  (∀ (s : State) (f : Frame), Presents s 0x62 f → u8 f.body 0 = 0 → u16 f.body 1 ≤ 4095 → 1 ≤ u8 f.body 3 → u8 f.body 3 ≤ 13 → u8 f.body 4 ≤ 1 →
    (recordOf s (u16 f.body 1 * 16 + u8 f.body 3) = none → exec .acknowledge s = .next (withReply f .notFound [] .nothing s)) ∧
    (∀ r, recordOf s (u16 f.body 1 * 16 + u8 f.body 3) = some r →
      (r.incident.isSome = true ∨ recordNeed r ≠ some (if u8 f.body 4 = 0 then .new else .restored) →
        exec .acknowledge s = .next (withReply f .state [] .nothing s)) ∧
      (r.incident = none → recordNeed r = some (if u8 f.body 4 = 0 then .new else .restored) →
        ∃ t, exec .acknowledge s = .next (withReply f .ok [] .nothing t) ∧
          t = { s with faults := t.faults, incidents := t.incidents, dispatch := t.dispatch } ∧
          (u8 f.body 4 = 0 → ∃ q, recordOf t (u16 f.body 1 * 16 + u8 f.body 3) = some q ∧ q.unmarked = { r with seen := true, waiting := none }) ∧
          (u8 f.body 4 = 1 → recordOf t (u16 f.body 1 * 16 + u8 f.body 3) = none) ∧
          (∀ n, (slotOf t n).unmarked = (slotOf s n).unmarked) ∧
          ∀ key, key ≠ u16 f.body 1 * 16 + u8 f.body 3 → (recordOf t key).map Record.unmarked = (recordOf s key).map Record.unmarked))) ∧
  (∀ (s : State) (f : Frame), Presents s 0x62 f → u8 f.body 0 = 1 → 1 ≤ u8 f.body 1 → u8 f.body 1 ≤ 248 → u8 f.body 2 = 0 → u8 f.body 3 = 0 →
    u8 f.body 4 ≤ 1 →
    let v := slotOf s (u8 f.body 1)
    (v.state = .free → exec .acknowledge s = .next (withReply f .notFound [] .nothing s)) ∧
    (v.state ≠ .free → slotNeed v ≠ some (if u8 f.body 4 = 0 then .new else .restored) →
      exec .acknowledge s = .next (withReply f .state [] .nothing s)) ∧
    (slotNeed v = some (if u8 f.body 4 = 0 then .new else .restored) →
      ∃ t, exec .acknowledge s = .next (withReply f .ok [] .nothing t) ∧
        t = { s with faults := t.faults, incidents := t.incidents, dispatch := t.dispatch } ∧
        t.incidents.storms = s.incidents.storms ∧
        (slotOf t (u8 f.body 1)).unmarked = (if u8 f.body 4 = 0 then { v with seen := true, waiting := none } else {}) ∧
        (∀ n, n ≠ u8 f.body 1 → (slotOf t n).unmarked = (slotOf s n).unmarked) ∧
        (Table.wf s.faults = true → ∀ key r, recordOf s key = some r → ∃ q, recordOf t key = some q ∧ q.unmarked =
          if u8 f.body 4 = 0 ∧ r.incident = some (u8 f.body 1) then { r with seen := true, waiting := none } else r.unmarked))) ∧
  ∀ (s : State) (f : Frame), Presents s 0x62 f →
    2 ≤ u8 f.body 0 ∨ 2 ≤ u8 f.body 4 ∨ (u8 f.body 0 = 0 ∧ (4095 < u16 f.body 1 ∨ u8 f.body 3 = 0 ∨ 13 < u8 f.body 3)) ∨
      (u8 f.body 0 = 1 ∧ (u8 f.body 1 = 0 ∨ 248 < u8 f.body 1 ∨ u8 f.body 2 ≠ 0 ∨ u8 f.body 3 ≠ 0)) →
    exec .acknowledge s = .next (withReply f .badValue [] .nothing s)

/-- R150, R148. Placing an item in a queue that has room inserts it behind every item that ranks ahead of it, and changes no waiting mark; in a full queue of 192
items it displaces the last queued item, which then waits with its reason, or waits itself with its own, and no other thing's mark changes. The queue stays in rank
order. (A record that the fault table does not hold has no mark to set.) -/
def Obligations.PlacingAnItemKeepsRank : Prop :=
  ∀ (s : State) (i : Item), s.dispatch.queue.Pairwise (fun x y => x.ahead y = true) →
    (∀ x ∈ s.dispatch.queue, x.thing ≠ i.thing) →
    (s.dispatch.queue.length < 192 → (placeItem i s).dispatch.queue.Perm (i :: s.dispatch.queue) ∧
      ∀ t, markOf (placeItem i s) t = markOf s t) ∧
    (placeItem i s).dispatch.queue.Pairwise (fun x y => x.ahead y = true) ∧
    (s.dispatch.queue.length = 192 → ∀ last, s.dispatch.queue.getLast? = some last →
      if i.ahead last then (placeItem i s).dispatch.queue.Perm (i :: s.dispatch.queue.dropLast) ∧
        (∀ t, t ≠ last.thing → markOf (placeItem i s) t = markOf s t) ∧
        ((∀ key, last.thing = .record key → (recordOf s key).isSome = true) → markOf (placeItem i s) last.thing = some last.reason)
      else (placeItem i s).dispatch.queue = s.dispatch.queue ∧
        (∀ t, t ≠ i.thing → markOf (placeItem i s) t = markOf s t) ∧
        ((∀ key, i.thing = .record key → (recordOf s key).isSome = true) → markOf (placeItem i s) i.thing = some i.reason))

/-- R145, R149 to R153, R159, R161: a queue action. It leaves every handed thing with the standing it needs: NONE, or QUEUED or WAITING with its reason. A changed
head makes a notice pending while notices are on, and the ALERT state is derived again; records and slots change in their waiting marks alone. For one thing: a new
item is placed; a withdrawn item is gone, and where it was queued the best-ranked waiting item takes its place; an item whose reason or rank has changed is placed
anew, and the best-ranked waiting item changes places with the last queued one where it ranks ahead of it; else nothing moves. -/
def Obligations.QueueActionServesNeeds : Prop :=
  (∀ (s : State) (ts : List Thing), QueueOrdered s → ∃ u, queueAction ts s = u ∧ QueueOrdered u ∧
    u = { s with
      faults := u.faults
      incidents := { s.incidents with slots := u.incidents.slots }
      dispatch := { s.dispatch with
        queue := u.dispatch.queue, notice := u.dispatch.notice, alert := alertFor u.dispatch.queue, pinHigh := u.dispatch.pinHigh
        flash := u.dispatch.flash } } ∧
    (∀ key, (recordOf u key).map Record.unmarked = (recordOf s key).map Record.unmarked) ∧
    (∀ n, (slotOf u n).unmarked = (slotOf s n).unmarked) ∧
    (∀ t ∈ ts, match needOf s t with
      | none => standingOf u t = .none
      | some r => standingOf u t = .queued r ∨ standingOf u t = .waiting r) ∧
    u.dispatch.notice =
      (if s.dispatch.notices = true ∧ (headOf u).map (fun i => (i.thing, i.reason)) ≠ (headOf s).map (fun i => (i.thing, i.reason)) then
        some ((headOf u).map (summaryOf u))
      else s.dispatch.notice)) ∧
  ∀ (s : State) (t : Thing), QueueOrdered s →
    let q := s.dispatch.queue
    let rest := q.filter (fun i => decide (i.thing ≠ t))
    ∃ u, queueAction [t] s = u ∧
      (∀ r, standingOf s t = .none → needOf s t = some r → u.dispatch.queue = (placeItem (mkItem s t r) s).dispatch.queue ∧
        ∀ x, markOf u x = markOf (placeItem (mkItem s t r) s) x) ∧
      (∀ r, standingOf s t = .queued r → needOf s t = none →
        (waitingItems s = [] → u.dispatch.queue = rest) ∧
        ∀ b, BestOf b (waitingItems s) → u.dispatch.queue.Perm (b :: rest) ∧ markOf u b.thing = none ∧
          ∀ x, x ≠ b.thing → markOf u x = markOf s x) ∧
      (∀ r, standingOf s t = .waiting r → needOf s t = none → u.dispatch.queue = q ∧ markOf u t = none ∧
        ∀ x, x ≠ t → markOf u x = markOf s x) ∧
      (∀ i r, queuedItem s t = some i → needOf s t = some r → mkItem s t r ≠ i →
        OrderRestored s u (insertItem (mkItem s t r) rest) (waitingItems s)) ∧
      (∀ r r', standingOf s t = .waiting r → needOf s t = some r' → OrderRestored s u q (waitingItems (setMark (some r') t s))) ∧
      (standingOf s t = .none ∧ needOf s t = none ∨ (∃ i r, queuedItem s t = some i ∧ needOf s t = some r ∧ mkItem s t r = i) →
        u.dispatch.queue = q ∧ ∀ x, markOf u x = markOf s x)

/-- R162, R163. SET-ALERT with its fields in range stores the settings; outside FLASH the pin takes its new level at once, and in FLASH the period in progress
runs on. In FLASH an on-phase shorter than its period is followed by the off-phase, and any other phase by a new period on the settings as they stand. -/
def Obligations.AlertSettingsAndFlashPattern : Prop :=
  (∀ (s : State) (f : Frame) (v : AlertSettings), Presents s 0x63 f → decEnum booleans (u8 f.body 0) = some v.activeHigh →
    u16 f.body 1 = v.period → u16 f.body 3 = v.onTime → 200 ≤ v.period → v.period ≤ 5000 → 100 ≤ v.onTime → v.onTime ≤ 5000 →
    exec .setAlert s = .next (withReply f .ok [] .nothing { s with dispatch :=
      match s.dispatch.alert with
      | .steady => { s.dispatch with alertSettings := v, pinHigh := v.activeHigh, flash := none }
      | .idle => { s.dispatch with alertSettings := v, pinHigh := !v.activeHigh, flash := none }
      | .flash => { s.dispatch with alertSettings := v } })) ∧
  (∀ (s : State) (p : FlashPeriod), settled s = true → s.dispatch.alert = .flash → s.dispatch.flash = some p →
    exec .flashPhase s = .next { s with dispatch :=
      if p.onPhase = true ∧ p.settings.onTime < p.settings.period then
        { s.dispatch with pinHigh := !p.settings.activeHigh, flash := some { p with onPhase := false } }
      else { s.dispatch with pinHigh := s.dispatch.alertSettings.activeHigh
                             flash := some { onPhase := true, settings := s.dispatch.alertSettings } } })

/-- R160. SET-NOTICES from off to on makes a notice of the head as it stands pending, from on to off discards a pending notice, and without a change leaves
it. -/
def Obligations.SetNoticesSwitchesNotices : Prop :=
  ∀ (s : State) (f : Frame), Presents s 0x64 f →
    (u8 f.body 0 = 1 → s.dispatch.notices = false → exec .setNotices s = .next (withReply f .ok [] .nothing { s with dispatch :=
      { s.dispatch with notices := true, notice := some ((headOf s).map (summaryOf s)) } })) ∧
    (u8 f.body 0 = 0 → s.dispatch.notices = true → exec .setNotices s = .next (withReply f .ok [] .nothing { s with dispatch :=
      { s.dispatch with notices := false, notice := none } })) ∧
    ((u8 f.body 0 = 1 ∧ s.dispatch.notices = true) ∨ (u8 f.body 0 = 0 ∧ s.dispatch.notices = false) →
      exec .setNotices s = .next (withReply f .ok [] .nothing s)) ∧
    (2 ≤ u8 f.body 0 → exec .setNotices s = .next (withReply f .badValue [] .nothing s))

/-! ## Invariants -/

/-- R19, R21, R24, R27, R35, R36, R46, R58, R59, R88, R135, R148, R168, R183. Every step keeps the lists and counters that Sized names within their bounds; so the decode
order never holds more than 8 blocks, and the wait list no more than the four lines. -/
def Obligations.StepKeepsSizes : Prop :=
  (∀ s t : State, Sized s → step s = .next t → Sized t) ∧
    ∀ s : State, Sized s → s.intake.order.length ≤ 8 ∧ s.intake.waiting.length ≤ 4

/-- R89, R91. Every step keeps every record fitting its condition: evidence 0 and window_left absent outside COUNT records, a trail of at most 4 entries, a
recurrence of at most 255. -/
def Obligations.StepKeepsRecordsFitting : Prop := ∀ s t : State, RecordsFit s → step s = .next t → RecordsFit t

/-- R161, R162, R159. Every step keeps the ALERT output as its queued items give it; so the pin is at its active level, outside FLASH, only while an item with
reason NEW is queued. -/
def Obligations.StepKeepsAlertDerived : Prop :=
  (∀ s t : State, AlertAgrees s.dispatch → step s = .next t → AlertAgrees t.dispatch) ∧
  ∀ d : Dispatch, AlertAgrees d → (∀ i ∈ d.queue, i.reason ≠ .new) → d.pinHigh = !d.alertSettings.activeHigh

/-- R147, R148, R151. Every step keeps the queue in rank order, with at most one item for each thing and at most 192, no queued thing waiting, and things waiting only
while it holds 192. -/
def Obligations.StepKeepsQueueOrdered : Prop := ∀ s t : State, QueueOrdered s → step s = .next t → QueueOrdered t

/-- 00_scope ("A table is keyed"), R2. Every step keeps every table, the outstations' point maps and those of a stored or captured configuration among them, in its
canonical form: keys strictly rising, so at most one entry per key, and no entry that an unlisted key would hold. -/
def Obligations.StepKeepsTablesCanonical : Prop := ∀ s t : State, Canonical s → step s = .next t → Canonical t

/-- The five invariants hold after reset. -/
def Obligations.ResetMeetsInvariants : Prop :=
  Sized State.reset ∧ RecordsFit State.reset ∧ AlertAgrees State.reset.dispatch ∧ QueueOrdered State.reset ∧ Canonical State.reset
end

