-- ==== Sys2Proof/Laws/Tables.lean ====
section
/-! SUPPORT. The laws of keyed tables: what a read gives after a write, and that every table operation keeps the canonical form. -/

namespace Sys2Proof.Machine

variable {α : Type}

/-! ## Read after write -/

@[simp] theorem Table.find_insert_self (t : Table α) (n : Nat) (v : α) : Table.find (Table.insert t n v) n = some v := by
  induction t with
  | nil => simp [Table.insert, Table.find]
  | cons e t ih =>
    obtain ⟨k, w⟩ := e
    by_cases h : n < k
    · simp [Table.insert, h, Table.find]
    · by_cases h' : n = k
      · simp [Table.insert, h', Table.find]
      · simp [Table.insert, h, h', Table.find, Ne.symm h', ih]

theorem Table.find_insert_ne (t : Table α) {n m : Nat} (v : α) (h : m ≠ n) : Table.find (Table.insert t n v) m = Table.find t m := by
  induction t with
  | nil => simp [Table.insert, Table.find, h.symm]
  | cons e t ih =>
    obtain ⟨k, w⟩ := e
    by_cases h1 : n < k
    · simp [Table.insert, h1, Table.find, h.symm]
    · by_cases h2 : n = k
      · subst h2; simp [Table.insert, Table.find, h.symm]
      · simp only [Table.insert, h1, h2, if_false, Table.find, ih]

@[simp] theorem Table.find_erase_self (t : Table α) (n : Nat) : Table.find (Table.erase t n) n = none := by
  induction t with
  | nil => rfl
  | cons e t ih =>
    obtain ⟨k, w⟩ := e
    by_cases h : k = n
    · simpa [Table.erase, h] using ih
    · simpa [Table.erase, List.filter_cons, h, Table.find] using ih

theorem Table.find_erase_ne (t : Table α) {n m : Nat} (h : m ≠ n) : Table.find (Table.erase t n) m = Table.find t m := by
  induction t with
  | nil => rfl
  | cons e t ih =>
    obtain ⟨k, w⟩ := e
    by_cases h1 : k = n
    · subst h1; simpa [Table.erase, Table.find, h.symm] using ih
    · have ih' : Table.find (t.filter (fun e => e.1 != n)) m = Table.find t m := ih
      simp [Table.erase, h1, Table.find, ih']

theorem Table.find_modify (t : Table α) (n m : Nat) (f : α → α) :
    Table.find (Table.modify t n f) m = if m = n then (Table.find t n).map f else Table.find t m := by
  induction t with
  | nil => simp [Table.modify, Table.find]
  | cons e t ih =>
    obtain ⟨k, w⟩ := e
    have ih' : Table.find (List.map (fun e => if e.1 = n then (e.1, f e.2) else e) t) m =
      if m = n then (Table.find t n).map f else Table.find t m := ih
    by_cases h1 : k = n
    · subst h1
      by_cases h2 : m = k
      · subst h2; simp [Table.modify, Table.find]
      · simp [Table.modify, Table.find, Ne.symm h2, ih', h2]
    · by_cases h2 : m = n
      · subst h2; simp [Table.modify, Table.find, h1, ih']
      · simp [Table.modify, Table.find, h1, ih', h2]

@[simp] theorem Table.find_modify_self (t : Table α) (n : Nat) (f : α → α) :
    Table.find (Table.modify t n f) n = (Table.find t n).map f := by simp [Table.find_modify]

theorem Table.find_modify_ne (t : Table α) {n m : Nat} (f : α → α) (h : m ≠ n) :
    Table.find (Table.modify t n f) m = Table.find t m := by simp [Table.find_modify, h]

variable [DecidableEq α]

@[simp] theorem Table.lookup_store_self (d : α) (t : Table α) (n : Nat) (v : α) :
    Table.lookup d (Table.store d t n v) n = v := by
  unfold Table.store Table.lookup
  split <;> simp [*]

theorem Table.lookup_store_ne (d : α) (t : Table α) {n m : Nat} (v : α) (h : m ≠ n) :
    Table.lookup d (Table.store d t n v) m = Table.lookup d t m := by
  unfold Table.store Table.lookup
  split <;> simp [Table.find_erase_ne, Table.find_insert_ne, h]

/-- A found entry stands in the table. -/
theorem Table.mem_of_find {β : Type} {t : Table β} {n : Nat} {v : β} (h : Table.find t n = some v) : (n, v) ∈ t := by
  induction t with
  | nil => simp [Table.find] at h
  | cons e t ih =>
    obtain ⟨k, w⟩ := e
    by_cases hk : k = n
    · simp [Table.find, hk] at h; simp [hk, h]
    · simp [Table.find, hk] at h; exact List.mem_cons_of_mem _ (ih h)

/-! ## Sizes -/

theorem Table.insert_length_le {β : Type} (t : Table β) (n : Nat) (v : β) : (Table.insert t n v).length ≤ t.length + 1 := by
  induction t with
  | nil => simp [Table.insert]
  | cons e t ih =>
    obtain ⟨k, w⟩ := e
    simp only [Table.insert]
    split
    · simp
    · split <;> simp_all

theorem Table.erase_length_le {β : Type} (t : Table β) (n : Nat) : (Table.erase t n).length ≤ t.length :=
  List.length_filter_le _ _

@[simp] theorem Table.modify_length {β : Type} (t : Table β) (n : Nat) (f : β → β) : (Table.modify t n f).length = t.length := by
  simp [Table.modify]

/-! ## Canonical form -/

theorem Table.wf_iff {β : Type} (t : Table β) : Table.wf t = true ↔ (Table.keys t).Pairwise (· < ·) := by
  induction t with
  | nil => simp [Table.wf, Table.keys]
  | cons e t ih =>
    obtain ⟨k, v⟩ := e
    cases t with
    | nil => simp [Table.wf, Table.keys]
    | cons e' t =>
      obtain ⟨k', v'⟩ := e'
      simp only [Table.wf, Bool.and_eq_true, decide_eq_true_eq, ih, Table.keys, List.map_cons, List.pairwise_cons, List.mem_cons,
        forall_eq_or_imp]
      constructor
      · rintro ⟨h1, h2, h3⟩; exact ⟨⟨h1, fun a ha => lt_trans h1 (h2 a ha)⟩, h2, h3⟩
      · rintro ⟨⟨h1, _⟩, h2, h3⟩; exact ⟨h1, h2, h3⟩

theorem Table.keys_insert {β : Type} (t : Table β) (n : Nat) (v : β) :
    ∀ k, k ∈ Table.keys (Table.insert t n v) ↔ k = n ∨ k ∈ Table.keys t := by
  intro k
  induction t with
  | nil => simp [Table.insert, Table.keys]
  | cons e t ih =>
    obtain ⟨j, w⟩ := e
    simp only [Table.keys] at ih ⊢
    by_cases h1 : n < j
    · simp [Table.insert, h1]
    · by_cases h2 : n = j
      · subst h2; simp [Table.insert]
      · simp only [Table.insert, h1, h2, if_false, List.map_cons, List.mem_cons, ih]; tauto

/-- Inserting keeps the keys rising. -/
theorem Table.wf_insert {β : Type} {t : Table β} (h : Table.wf t = true) (n : Nat) (v : β) : Table.wf (Table.insert t n v) = true := by
  rw [Table.wf_iff] at h ⊢
  induction t with
  | nil => simp [Table.insert, Table.keys]
  | cons e t ih =>
    obtain ⟨k, w⟩ := e
    have hk : ∀ a ∈ Table.keys t, k < a := (List.pairwise_cons.mp h).1
    have ht : (Table.keys t).Pairwise (· < ·) := (List.pairwise_cons.mp h).2
    by_cases h1 : n < k
    · simp only [Table.insert, h1, if_true]
      refine List.pairwise_cons.mpr ⟨?_, h⟩
      intro a ha
      rcases List.mem_cons.mp ha with rfl | ha
      · exact h1
      · exact lt_trans h1 (hk a ha)
    · by_cases h2 : n = k
      · subst h2; simp only [Table.insert, h1, if_false, if_true]; exact List.pairwise_cons.mpr ⟨hk, ht⟩
      · simp only [Table.insert, h1, h2, if_false]
        refine List.pairwise_cons.mpr ⟨?_, ih ht⟩
        intro a ha
        rcases (Table.keys_insert t n v a).mp ha with rfl | ha
        · show k < a; omega
        · exact hk a ha

/-- Any selection of a table keeps the keys rising. -/
theorem Table.wf_filter {β : Type} {t : Table β} (h : Table.wf t = true) (p : Nat × β → Bool) : Table.wf (t.filter p) = true := by
  rw [Table.wf_iff] at h ⊢
  exact h.sublist (List.Sublist.map _ List.filter_sublist)

/-- Erasing keeps the keys rising. -/
theorem Table.wf_erase {β : Type} {t : Table β} (h : Table.wf t = true) (n : Nat) : Table.wf (Table.erase t n) = true :=
  Table.wf_filter h _

/-- A change of the entries alone keeps the keys rising. -/
theorem Table.wf_map {β γ : Type} {t : Table β} (h : Table.wf t = true) (f : Nat × β → Nat × γ) (hf : ∀ e, (f e).1 = e.1) :
    Table.wf (t.map f) = true := by
  rw [Table.wf_iff] at h ⊢
  have : Table.keys (t.map f) = Table.keys t := by simp [Table.keys, hf]
  rw [this]; exact h

/-- Modifying keeps the keys rising. -/
theorem Table.wf_modify {β : Type} {t : Table β} (h : Table.wf t = true) (n : Nat) (f : β → β) : Table.wf (Table.modify t n f) = true := by
  refine Table.wf_map h _ ?_
  intro e; split <;> rfl

/-- Storing keeps the keys rising. -/
theorem Table.wf_store {d : α} {t : Table α} (h : Table.wf t = true) (n : Nat) (v : α) : Table.wf (Table.store d t n v) = true := by
  unfold Table.store
  split
  · exact Table.wf_erase h n
  · exact Table.wf_insert h n v

theorem Table.mem_insert {β : Type} (t : Table β) (n : Nat) (v : β) : ∀ e ∈ Table.insert t n v, e = (n, v) ∨ e ∈ t := by
  intro e
  induction t with
  | nil => simp [Table.insert]
  | cons x t ih =>
    obtain ⟨k, w⟩ := x
    by_cases h1 : n < k
    · simp [Table.insert, h1]
    · by_cases h2 : n = k
      · subst h2; simp [Table.insert]; tauto
      · simp only [Table.insert, h1, h2, if_false, List.mem_cons]
        rintro (rfl | he)
        · exact .inr (.inl rfl)
        · rcases ih he with h | h
          · exact .inl h
          · exact .inr (.inr h)

/-- Storing lists no default. -/
theorem Table.noDefaults_store {d : α} {t : Table α} (h : Table.noDefaults d t = true) (n : Nat) (v : α) :
    Table.noDefaults d (Table.store d t n v) = true := by
  simp only [Table.noDefaults, List.all_eq_true, bne_iff_ne, ne_eq] at h ⊢
  intro e he
  unfold Table.store at he
  split at he
  · exact h e (List.mem_of_mem_filter he)
  · rcases Table.mem_insert t n v e he with rfl | h'
    · assumption
    · exact h e h'

end Sys2Proof.Machine
end

