-- ==== Sys2Proof/Laws/State.lean ====
section
/-! SUPPORT. One lemma per block per named update of the state, so that no proof unfolds a record update. -/

namespace Sys2Proof.Machine

/-! ## modStation -/

@[simp] theorem modStation_timebase (n : Nat) (f : Station → Station) (s : State) : (modStation n f s).timebase = s.timebase := rfl
@[simp] theorem modStation_gate (n : Nat) (f : Station → Station) (s : State) : (modStation n f s).gate = s.gate := rfl
@[simp] theorem modStation_directory (n : Nat) (f : Station → Station) (s : State) : (modStation n f s).directory = { s.directory with stations := Table.modify s.directory.stations n f } := rfl
@[simp] theorem modStation_lines (n : Nat) (f : Station → Station) (s : State) : (modStation n f s).lines = s.lines := rfl
@[simp] theorem modStation_intake (n : Nat) (f : Station → Station) (s : State) : (modStation n f s).intake = s.intake := rfl
@[simp] theorem modStation_faults (n : Nat) (f : Station → Station) (s : State) : (modStation n f s).faults = s.faults := rfl
@[simp] theorem modStation_incidents (n : Nat) (f : Station → Station) (s : State) : (modStation n f s).incidents = s.incidents := rfl
@[simp] theorem modStation_dispatch (n : Nat) (f : Station → Station) (s : State) : (modStation n f s).dispatch = s.dispatch := rfl
@[simp] theorem modStation_link (n : Nat) (f : Station → Station) (s : State) : (modStation n f s).link = s.link := rfl
@[simp] theorem modStation_store (n : Nat) (f : Station → Station) (s : State) : (modStation n f s).store = s.store := rfl
@[simp] theorem modStation_tick (n : Nat) (f : Station → Station) (s : State) : (modStation n f s).tick = s.tick := rfl
@[simp] theorem modStation_pending (n : Nat) (f : Station → Station) (s : State) : (modStation n f s).pending = s.pending := rfl

/-! ## modAsset -/

@[simp] theorem modAsset_timebase (n : Nat) (f : Asset → Asset) (s : State) : (modAsset n f s).timebase = s.timebase := rfl
@[simp] theorem modAsset_gate (n : Nat) (f : Asset → Asset) (s : State) : (modAsset n f s).gate = s.gate := rfl
@[simp] theorem modAsset_directory (n : Nat) (f : Asset → Asset) (s : State) : (modAsset n f s).directory = { s.directory with assets := Table.modify s.directory.assets n f } := rfl
@[simp] theorem modAsset_lines (n : Nat) (f : Asset → Asset) (s : State) : (modAsset n f s).lines = s.lines := rfl
@[simp] theorem modAsset_intake (n : Nat) (f : Asset → Asset) (s : State) : (modAsset n f s).intake = s.intake := rfl
@[simp] theorem modAsset_faults (n : Nat) (f : Asset → Asset) (s : State) : (modAsset n f s).faults = s.faults := rfl
@[simp] theorem modAsset_incidents (n : Nat) (f : Asset → Asset) (s : State) : (modAsset n f s).incidents = s.incidents := rfl
@[simp] theorem modAsset_dispatch (n : Nat) (f : Asset → Asset) (s : State) : (modAsset n f s).dispatch = s.dispatch := rfl
@[simp] theorem modAsset_link (n : Nat) (f : Asset → Asset) (s : State) : (modAsset n f s).link = s.link := rfl
@[simp] theorem modAsset_store (n : Nat) (f : Asset → Asset) (s : State) : (modAsset n f s).store = s.store := rfl
@[simp] theorem modAsset_tick (n : Nat) (f : Asset → Asset) (s : State) : (modAsset n f s).tick = s.tick := rfl
@[simp] theorem modAsset_pending (n : Nat) (f : Asset → Asset) (s : State) : (modAsset n f s).pending = s.pending := rfl

/-! ## modRecord -/

@[simp] theorem modRecord_timebase (n : Nat) (f : Record → Record) (s : State) : (modRecord n f s).timebase = s.timebase := rfl
@[simp] theorem modRecord_gate (n : Nat) (f : Record → Record) (s : State) : (modRecord n f s).gate = s.gate := rfl
@[simp] theorem modRecord_directory (n : Nat) (f : Record → Record) (s : State) : (modRecord n f s).directory = s.directory := rfl
@[simp] theorem modRecord_lines (n : Nat) (f : Record → Record) (s : State) : (modRecord n f s).lines = s.lines := rfl
@[simp] theorem modRecord_intake (n : Nat) (f : Record → Record) (s : State) : (modRecord n f s).intake = s.intake := rfl
@[simp] theorem modRecord_faults (n : Nat) (f : Record → Record) (s : State) : (modRecord n f s).faults = Table.modify s.faults n f := rfl
@[simp] theorem modRecord_incidents (n : Nat) (f : Record → Record) (s : State) : (modRecord n f s).incidents = s.incidents := rfl
@[simp] theorem modRecord_dispatch (n : Nat) (f : Record → Record) (s : State) : (modRecord n f s).dispatch = s.dispatch := rfl
@[simp] theorem modRecord_link (n : Nat) (f : Record → Record) (s : State) : (modRecord n f s).link = s.link := rfl
@[simp] theorem modRecord_store (n : Nat) (f : Record → Record) (s : State) : (modRecord n f s).store = s.store := rfl
@[simp] theorem modRecord_tick (n : Nat) (f : Record → Record) (s : State) : (modRecord n f s).tick = s.tick := rfl
@[simp] theorem modRecord_pending (n : Nat) (f : Record → Record) (s : State) : (modRecord n f s).pending = s.pending := rfl

/-! ## setSlot -/

@[simp] theorem setSlot_timebase (n : Nat) (v : Slot) (s : State) : (setSlot n v s).timebase = s.timebase := rfl
@[simp] theorem setSlot_gate (n : Nat) (v : Slot) (s : State) : (setSlot n v s).gate = s.gate := rfl
@[simp] theorem setSlot_directory (n : Nat) (v : Slot) (s : State) : (setSlot n v s).directory = s.directory := rfl
@[simp] theorem setSlot_lines (n : Nat) (v : Slot) (s : State) : (setSlot n v s).lines = s.lines := rfl
@[simp] theorem setSlot_intake (n : Nat) (v : Slot) (s : State) : (setSlot n v s).intake = s.intake := rfl
@[simp] theorem setSlot_faults (n : Nat) (v : Slot) (s : State) : (setSlot n v s).faults = s.faults := rfl
@[simp] theorem setSlot_incidents (n : Nat) (v : Slot) (s : State) : (setSlot n v s).incidents = { s.incidents with slots := Table.store {} s.incidents.slots n v } := rfl
@[simp] theorem setSlot_dispatch (n : Nat) (v : Slot) (s : State) : (setSlot n v s).dispatch = s.dispatch := rfl
@[simp] theorem setSlot_link (n : Nat) (v : Slot) (s : State) : (setSlot n v s).link = s.link := rfl
@[simp] theorem setSlot_store (n : Nat) (v : Slot) (s : State) : (setSlot n v s).store = s.store := rfl
@[simp] theorem setSlot_tick (n : Nat) (v : Slot) (s : State) : (setSlot n v s).tick = s.tick := rfl
@[simp] theorem setSlot_pending (n : Nat) (v : Slot) (s : State) : (setSlot n v s).pending = s.pending := rfl

/-! ## setWindow -/

@[simp] theorem setWindow_timebase (n : Nat) (w : List Nat) (s : State) : (setWindow n w s).timebase = s.timebase := rfl
@[simp] theorem setWindow_gate (n : Nat) (w : List Nat) (s : State) : (setWindow n w s).gate = s.gate := rfl
@[simp] theorem setWindow_directory (n : Nat) (w : List Nat) (s : State) : (setWindow n w s).directory = s.directory := rfl
@[simp] theorem setWindow_lines (n : Nat) (w : List Nat) (s : State) : (setWindow n w s).lines = s.lines := rfl
@[simp] theorem setWindow_intake (n : Nat) (w : List Nat) (s : State) : (setWindow n w s).intake = s.intake := rfl
@[simp] theorem setWindow_faults (n : Nat) (w : List Nat) (s : State) : (setWindow n w s).faults = s.faults := rfl
@[simp] theorem setWindow_incidents (n : Nat) (w : List Nat) (s : State) : (setWindow n w s).incidents = { s.incidents with storms := Table.store calmWindow s.incidents.storms n w } := rfl
@[simp] theorem setWindow_dispatch (n : Nat) (w : List Nat) (s : State) : (setWindow n w s).dispatch = s.dispatch := rfl
@[simp] theorem setWindow_link (n : Nat) (w : List Nat) (s : State) : (setWindow n w s).link = s.link := rfl
@[simp] theorem setWindow_store (n : Nat) (w : List Nat) (s : State) : (setWindow n w s).store = s.store := rfl
@[simp] theorem setWindow_tick (n : Nat) (w : List Nat) (s : State) : (setWindow n w s).tick = s.tick := rfl
@[simp] theorem setWindow_pending (n : Nat) (w : List Nat) (s : State) : (setWindow n w s).pending = s.pending := rfl

/-! ## modIntake -/

@[simp] theorem modIntake_timebase (f : Intake → Intake) (s : State) : (modIntake f s).timebase = s.timebase := rfl
@[simp] theorem modIntake_gate (f : Intake → Intake) (s : State) : (modIntake f s).gate = s.gate := rfl
@[simp] theorem modIntake_directory (f : Intake → Intake) (s : State) : (modIntake f s).directory = s.directory := rfl
@[simp] theorem modIntake_lines (f : Intake → Intake) (s : State) : (modIntake f s).lines = s.lines := rfl
@[simp] theorem modIntake_intake (f : Intake → Intake) (s : State) : (modIntake f s).intake = f s.intake := rfl
@[simp] theorem modIntake_faults (f : Intake → Intake) (s : State) : (modIntake f s).faults = s.faults := rfl
@[simp] theorem modIntake_incidents (f : Intake → Intake) (s : State) : (modIntake f s).incidents = s.incidents := rfl
@[simp] theorem modIntake_dispatch (f : Intake → Intake) (s : State) : (modIntake f s).dispatch = s.dispatch := rfl
@[simp] theorem modIntake_link (f : Intake → Intake) (s : State) : (modIntake f s).link = s.link := rfl
@[simp] theorem modIntake_store (f : Intake → Intake) (s : State) : (modIntake f s).store = s.store := rfl
@[simp] theorem modIntake_tick (f : Intake → Intake) (s : State) : (modIntake f s).tick = s.tick := rfl
@[simp] theorem modIntake_pending (f : Intake → Intake) (s : State) : (modIntake f s).pending = s.pending := rfl

/-! ## modTick -/

@[simp] theorem modTick_timebase (f : TickDue → TickDue) (s : State) : (modTick f s).timebase = s.timebase := rfl
@[simp] theorem modTick_gate (f : TickDue → TickDue) (s : State) : (modTick f s).gate = s.gate := rfl
@[simp] theorem modTick_directory (f : TickDue → TickDue) (s : State) : (modTick f s).directory = s.directory := rfl
@[simp] theorem modTick_lines (f : TickDue → TickDue) (s : State) : (modTick f s).lines = s.lines := rfl
@[simp] theorem modTick_intake (f : TickDue → TickDue) (s : State) : (modTick f s).intake = s.intake := rfl
@[simp] theorem modTick_faults (f : TickDue → TickDue) (s : State) : (modTick f s).faults = s.faults := rfl
@[simp] theorem modTick_incidents (f : TickDue → TickDue) (s : State) : (modTick f s).incidents = s.incidents := rfl
@[simp] theorem modTick_dispatch (f : TickDue → TickDue) (s : State) : (modTick f s).dispatch = s.dispatch := rfl
@[simp] theorem modTick_link (f : TickDue → TickDue) (s : State) : (modTick f s).link = s.link := rfl
@[simp] theorem modTick_store (f : TickDue → TickDue) (s : State) : (modTick f s).store = s.store := rfl
@[simp] theorem modTick_tick (f : TickDue → TickDue) (s : State) : (modTick f s).tick = f s.tick := rfl
@[simp] theorem modTick_pending (f : TickDue → TickDue) (s : State) : (modTick f s).pending = s.pending := rfl

/-! ## modLink -/

@[simp] theorem modLink_timebase (f : Link → Link) (s : State) : (modLink f s).timebase = s.timebase := rfl
@[simp] theorem modLink_gate (f : Link → Link) (s : State) : (modLink f s).gate = s.gate := rfl
@[simp] theorem modLink_directory (f : Link → Link) (s : State) : (modLink f s).directory = s.directory := rfl
@[simp] theorem modLink_lines (f : Link → Link) (s : State) : (modLink f s).lines = s.lines := rfl
@[simp] theorem modLink_intake (f : Link → Link) (s : State) : (modLink f s).intake = s.intake := rfl
@[simp] theorem modLink_faults (f : Link → Link) (s : State) : (modLink f s).faults = s.faults := rfl
@[simp] theorem modLink_incidents (f : Link → Link) (s : State) : (modLink f s).incidents = s.incidents := rfl
@[simp] theorem modLink_dispatch (f : Link → Link) (s : State) : (modLink f s).dispatch = s.dispatch := rfl
@[simp] theorem modLink_link (f : Link → Link) (s : State) : (modLink f s).link = f s.link := rfl
@[simp] theorem modLink_store (f : Link → Link) (s : State) : (modLink f s).store = s.store := rfl
@[simp] theorem modLink_tick (f : Link → Link) (s : State) : (modLink f s).tick = s.tick := rfl
@[simp] theorem modLink_pending (f : Link → Link) (s : State) : (modLink f s).pending = s.pending := rfl

/-! ## modFlags -/

@[simp] theorem modFlags_timebase (f : Sticky → Sticky) (s : State) : (modFlags f s).timebase = s.timebase := rfl
@[simp] theorem modFlags_gate (f : Sticky → Sticky) (s : State) : (modFlags f s).gate = s.gate := rfl
@[simp] theorem modFlags_directory (f : Sticky → Sticky) (s : State) : (modFlags f s).directory = s.directory := rfl
@[simp] theorem modFlags_lines (f : Sticky → Sticky) (s : State) : (modFlags f s).lines = s.lines := rfl
@[simp] theorem modFlags_intake (f : Sticky → Sticky) (s : State) : (modFlags f s).intake = s.intake := rfl
@[simp] theorem modFlags_faults (f : Sticky → Sticky) (s : State) : (modFlags f s).faults = s.faults := rfl
@[simp] theorem modFlags_incidents (f : Sticky → Sticky) (s : State) : (modFlags f s).incidents = s.incidents := rfl
@[simp] theorem modFlags_dispatch (f : Sticky → Sticky) (s : State) : (modFlags f s).dispatch = s.dispatch := rfl
@[simp] theorem modFlags_link (f : Sticky → Sticky) (s : State) : (modFlags f s).link = { s.link with flags := f s.link.flags } := rfl
@[simp] theorem modFlags_store (f : Sticky → Sticky) (s : State) : (modFlags f s).store = s.store := rfl
@[simp] theorem modFlags_tick (f : Sticky → Sticky) (s : State) : (modFlags f s).tick = s.tick := rfl
@[simp] theorem modFlags_pending (f : Sticky → Sticky) (s : State) : (modFlags f s).pending = s.pending := rfl

/-! ## modTimebase -/

@[simp] theorem modTimebase_timebase (f : Timebase → Timebase) (s : State) : (modTimebase f s).timebase = f s.timebase := rfl
@[simp] theorem modTimebase_gate (f : Timebase → Timebase) (s : State) : (modTimebase f s).gate = s.gate := rfl
@[simp] theorem modTimebase_directory (f : Timebase → Timebase) (s : State) : (modTimebase f s).directory = s.directory := rfl
@[simp] theorem modTimebase_lines (f : Timebase → Timebase) (s : State) : (modTimebase f s).lines = s.lines := rfl
@[simp] theorem modTimebase_intake (f : Timebase → Timebase) (s : State) : (modTimebase f s).intake = s.intake := rfl
@[simp] theorem modTimebase_faults (f : Timebase → Timebase) (s : State) : (modTimebase f s).faults = s.faults := rfl
@[simp] theorem modTimebase_incidents (f : Timebase → Timebase) (s : State) : (modTimebase f s).incidents = s.incidents := rfl
@[simp] theorem modTimebase_dispatch (f : Timebase → Timebase) (s : State) : (modTimebase f s).dispatch = s.dispatch := rfl
@[simp] theorem modTimebase_link (f : Timebase → Timebase) (s : State) : (modTimebase f s).link = s.link := rfl
@[simp] theorem modTimebase_store (f : Timebase → Timebase) (s : State) : (modTimebase f s).store = s.store := rfl
@[simp] theorem modTimebase_tick (f : Timebase → Timebase) (s : State) : (modTimebase f s).tick = s.tick := rfl
@[simp] theorem modTimebase_pending (f : Timebase → Timebase) (s : State) : (modTimebase f s).pending = s.pending := rfl

/-! ## modDispatch -/

@[simp] theorem modDispatch_timebase (f : Dispatch → Dispatch) (s : State) : (modDispatch f s).timebase = s.timebase := rfl
@[simp] theorem modDispatch_gate (f : Dispatch → Dispatch) (s : State) : (modDispatch f s).gate = s.gate := rfl
@[simp] theorem modDispatch_directory (f : Dispatch → Dispatch) (s : State) : (modDispatch f s).directory = s.directory := rfl
@[simp] theorem modDispatch_lines (f : Dispatch → Dispatch) (s : State) : (modDispatch f s).lines = s.lines := rfl
@[simp] theorem modDispatch_intake (f : Dispatch → Dispatch) (s : State) : (modDispatch f s).intake = s.intake := rfl
@[simp] theorem modDispatch_faults (f : Dispatch → Dispatch) (s : State) : (modDispatch f s).faults = s.faults := rfl
@[simp] theorem modDispatch_incidents (f : Dispatch → Dispatch) (s : State) : (modDispatch f s).incidents = s.incidents := rfl
@[simp] theorem modDispatch_dispatch (f : Dispatch → Dispatch) (s : State) : (modDispatch f s).dispatch = f s.dispatch := rfl
@[simp] theorem modDispatch_link (f : Dispatch → Dispatch) (s : State) : (modDispatch f s).link = s.link := rfl
@[simp] theorem modDispatch_store (f : Dispatch → Dispatch) (s : State) : (modDispatch f s).store = s.store := rfl
@[simp] theorem modDispatch_tick (f : Dispatch → Dispatch) (s : State) : (modDispatch f s).tick = s.tick := rfl
@[simp] theorem modDispatch_pending (f : Dispatch → Dispatch) (s : State) : (modDispatch f s).pending = s.pending := rfl

/-! ## setQueue -/

@[simp] theorem setQueue_timebase (q : List Item) (s : State) : (setQueue q s).timebase = s.timebase := rfl
@[simp] theorem setQueue_gate (q : List Item) (s : State) : (setQueue q s).gate = s.gate := rfl
@[simp] theorem setQueue_directory (q : List Item) (s : State) : (setQueue q s).directory = s.directory := rfl
@[simp] theorem setQueue_lines (q : List Item) (s : State) : (setQueue q s).lines = s.lines := rfl
@[simp] theorem setQueue_intake (q : List Item) (s : State) : (setQueue q s).intake = s.intake := rfl
@[simp] theorem setQueue_faults (q : List Item) (s : State) : (setQueue q s).faults = s.faults := rfl
@[simp] theorem setQueue_incidents (q : List Item) (s : State) : (setQueue q s).incidents = s.incidents := rfl
@[simp] theorem setQueue_dispatch (q : List Item) (s : State) : (setQueue q s).dispatch = { s.dispatch with queue := q } := rfl
@[simp] theorem setQueue_link (q : List Item) (s : State) : (setQueue q s).link = s.link := rfl
@[simp] theorem setQueue_store (q : List Item) (s : State) : (setQueue q s).store = s.store := rfl
@[simp] theorem setQueue_tick (q : List Item) (s : State) : (setQueue q s).tick = s.tick := rfl
@[simp] theorem setQueue_pending (q : List Item) (s : State) : (setQueue q s).pending = s.pending := rfl

/-! ## modLine -/

@[simp] theorem modLine_timebase (l : FieldLine) (f : LineController → LineController) (s : State) : (modLine l f s).timebase = s.timebase := rfl
@[simp] theorem modLine_gate (l : FieldLine) (f : LineController → LineController) (s : State) : (modLine l f s).gate = s.gate := rfl
@[simp] theorem modLine_directory (l : FieldLine) (f : LineController → LineController) (s : State) : (modLine l f s).directory = s.directory := rfl
@[simp] theorem modLine_intake (l : FieldLine) (f : LineController → LineController) (s : State) : (modLine l f s).intake = s.intake := rfl
@[simp] theorem modLine_faults (l : FieldLine) (f : LineController → LineController) (s : State) : (modLine l f s).faults = s.faults := rfl
@[simp] theorem modLine_incidents (l : FieldLine) (f : LineController → LineController) (s : State) : (modLine l f s).incidents = s.incidents := rfl
@[simp] theorem modLine_dispatch (l : FieldLine) (f : LineController → LineController) (s : State) : (modLine l f s).dispatch = s.dispatch := rfl
@[simp] theorem modLine_link (l : FieldLine) (f : LineController → LineController) (s : State) : (modLine l f s).link = s.link := rfl
@[simp] theorem modLine_store (l : FieldLine) (f : LineController → LineController) (s : State) : (modLine l f s).store = s.store := rfl
@[simp] theorem modLine_tick (l : FieldLine) (f : LineController → LineController) (s : State) : (modLine l f s).tick = s.tick := rfl
@[simp] theorem modLine_pending (l : FieldLine) (f : LineController → LineController) (s : State) : (modLine l f s).pending = s.pending := rfl

@[simp] theorem lineOf_modLine_self (l : FieldLine) (f : LineController → LineController) (s : State) :
    lineOf (modLine l f s) l = f (lineOf s l) := by cases l <;> rfl

@[simp] theorem breakQuiet_settings (c : LineController) : (breakQuiet c).settings = c.settings := rfl
@[simp] theorem breakQuiet_exchange (c : LineController) : (breakQuiet c).exchange = c.exchange := rfl
@[simp] theorem breakQuiet_driverEnable (c : LineController) : (breakQuiet c).driverEnable = c.driverEnable := rfl
@[simp] theorem breakQuiet_interval (c : LineController) : (breakQuiet c).interval = c.interval := rfl
@[simp] theorem breakQuiet_list (c : LineController) : (breakQuiet c).list = c.list := rfl
@[simp] theorem breakQuiet_quiet (c : LineController) : (breakQuiet c).quiet = 0 := rfl
@[simp] theorem secondQuiet_settings (c : LineController) : (secondQuiet c).settings = c.settings := rfl
@[simp] theorem secondQuiet_state (c : LineController) : (secondQuiet c).state = c.state := rfl
@[simp] theorem secondQuiet_interval (c : LineController) : (secondQuiet c).interval = c.interval := rfl
@[simp] theorem secondQuiet_exchange (c : LineController) : (secondQuiet c).exchange = c.exchange := rfl

@[simp] theorem abandonAttempt_settings (c : LineController) : (abandonAttempt c).settings = c.settings := by
  unfold abandonAttempt; split <;> rfl
@[simp] theorem abandonAttempt_interval (c : LineController) : (abandonAttempt c).interval = c.interval := by
  unfold abandonAttempt; split <;> rfl

theorem lineOf_modLine_ne {l m : FieldLine} (f : LineController → LineController) (s : State) (h : m ≠ l) :
    lineOf (modLine l f s) m = lineOf s m := by cases l <;> cases m <;> first | rfl | exact absurd rfl h

/-! ## withPending -/

@[simp] theorem withPending_timebase (s : State) (cs : List Instr) : (s.withPending cs).timebase = s.timebase := rfl
@[simp] theorem withPending_gate (s : State) (cs : List Instr) : (s.withPending cs).gate = s.gate := rfl
@[simp] theorem withPending_directory (s : State) (cs : List Instr) : (s.withPending cs).directory = s.directory := rfl
@[simp] theorem withPending_lines (s : State) (cs : List Instr) : (s.withPending cs).lines = s.lines := rfl
@[simp] theorem withPending_intake (s : State) (cs : List Instr) : (s.withPending cs).intake = s.intake := rfl
@[simp] theorem withPending_faults (s : State) (cs : List Instr) : (s.withPending cs).faults = s.faults := rfl
@[simp] theorem withPending_incidents (s : State) (cs : List Instr) : (s.withPending cs).incidents = s.incidents := rfl
@[simp] theorem withPending_dispatch (s : State) (cs : List Instr) : (s.withPending cs).dispatch = s.dispatch := rfl
@[simp] theorem withPending_link (s : State) (cs : List Instr) : (s.withPending cs).link = s.link := rfl
@[simp] theorem withPending_store (s : State) (cs : List Instr) : (s.withPending cs).store = s.store := rfl
@[simp] theorem withPending_tick (s : State) (cs : List Instr) : (s.withPending cs).tick = s.tick := rfl
@[simp] theorem withPending_pending (s : State) (cs : List Instr) : (s.withPending cs).pending = cs := rfl

/-! ## One entry of a table -/

@[simp] theorem stationOf_modStation_self (n : Nat) (f : Station → Station) (s : State) :
    stationOf (modStation n f s) n = (stationOf s n).map f := by simp [stationOf]

theorem stationOf_modStation_ne {n m : Nat} (f : Station → Station) (s : State) (h : m ≠ n) :
    stationOf (modStation n f s) m = stationOf s m := by simp [stationOf, Table.find_modify_ne, h]

@[simp] theorem assetOf_modAsset_self (n : Nat) (f : Asset → Asset) (s : State) :
    assetOf (modAsset n f s) n = (assetOf s n).map f := by simp [assetOf]

theorem assetOf_modAsset_ne {n m : Nat} (f : Asset → Asset) (s : State) (h : m ≠ n) :
    assetOf (modAsset n f s) m = assetOf s m := by simp [assetOf, Table.find_modify_ne, h]

@[simp] theorem recordOf_modRecord_self (n : Nat) (f : Record → Record) (s : State) :
    recordOf (modRecord n f s) n = (recordOf s n).map f := by simp [recordOf]

theorem recordOf_modRecord_ne {n m : Nat} (f : Record → Record) (s : State) (h : m ≠ n) :
    recordOf (modRecord n f s) m = recordOf s m := by simp [recordOf, Table.find_modify_ne, h]

@[simp] theorem slotOf_setSlot_self (n : Nat) (v : Slot) (s : State) : slotOf (setSlot n v s) n = v := by simp [slotOf]

theorem slotOf_setSlot_ne {n m : Nat} (v : Slot) (s : State) (h : m ≠ n) : slotOf (setSlot n v s) m = slotOf s m := by
  simp [slotOf, Table.lookup_store_ne, h]

@[simp] theorem slotOf_modSlot_self (n : Nat) (f : Slot → Slot) (s : State) : slotOf (modSlot n f s) n = f (slotOf s n) := by
  simp [modSlot]

theorem slotOf_modSlot_ne {n m : Nat} (f : Slot → Slot) (s : State) (h : m ≠ n) : slotOf (modSlot n f s) m = slotOf s m := by
  simp [modSlot, slotOf_setSlot_ne, h]

@[simp] theorem windowOf_setWindow_self (n : Nat) (w : List Nat) (s : State) : windowOf (setWindow n w s) n = w := by simp [windowOf]

theorem windowOf_setWindow_ne {n m : Nat} (w : List Nat) (s : State) (h : m ≠ n) : windowOf (setWindow n w s) m = windowOf s m := by
  simp [windowOf, Table.lookup_store_ne, h]

end Sys2Proof.Machine
end

