-- ==== Sys2Proof/Laws/Clock.lean ====
section
/-! SUPPORT. What the passing of time can do (R20, R21): it changes the Timebase's clock and may set CLOCK-FAIL, and nothing else. -/

namespace Sys2Proof.Machine

/-- What the passing of time leaves as it is: every block but the Timebase and the flag CLOCK-FAIL, and of the Timebase the run-second, the wall
offset and the set mark. -/
structure ClockFrame (s t : State) : Prop where
  frame : t = { s with timebase := t.timebase, link := { s.link with flags := { s.link.flags with clockFail := t.link.flags.clockFail } } }
  runSecond : t.timebase.runSecond = s.timebase.runSecond
  wallOffset : t.timebase.wallOffset = s.timebase.wallOffset
  timeSet : t.timebase.timeSet = s.timebase.timeSet

theorem ClockFrame.refl (s : State) : ClockFrame s s := ⟨rfl, rfl, rfl, rfl⟩

theorem ClockFrame.trans {s t u : State} (h : ClockFrame s t) (k : ClockFrame t u) : ClockFrame s u :=
  ⟨by rw [k.frame, h.frame], k.runSecond.trans h.runSecond, k.wallOffset.trans h.wallOffset, k.timeSet.trans h.timeSet⟩

theorem modTimebase_frame {f : Timebase → Timebase} (s : State) (h1 : ∀ t, (f t).runSecond = t.runSecond)
    (h2 : ∀ t, (f t).wallOffset = t.wallOffset) (h3 : ∀ t, (f t).timeSet = t.timeSet) : ClockFrame s (modTimebase f s) :=
  ⟨rfl, h1 _, h2 _, h3 _⟩

theorem addPhase_frame (d : Nat) (s : State) : ClockFrame s (addPhase d s) := ⟨rfl, rfl, rfl, rfl⟩

theorem enterMonitor_frame (m : MonitorState) (s : State) : ClockFrame s (enterMonitor m s) := ⟨rfl, rfl, rfl, rfl⟩

theorem failCrystal_frame (s : State) : ClockFrame s (failCrystal s) := ⟨rfl, rfl, rfl, rfl⟩

theorem takeExit_frame (s : State) : ClockFrame s (takeExit s) := by
  unfold takeExit
  split
  · split
    · exact enterMonitor_frame _ s
    · split
      · exact failCrystal_frame s
      · exact .refl s
  · exact .refl s

theorem passTime_frame (d : Nat) (s : State) : ClockFrame s (passTime d s) := by
  refine (takeExit_frame s).trans ?_
  unfold passTime
  dsimp only
  split
  · split
    · exact (failCrystal_frame _).trans (addPhase_frame d _)
    · exact ⟨rfl, rfl, rfl, rfl⟩
  · exact addPhase_frame d _

theorem completeSecond_frame (s : State) : ClockFrame s (completeSecond s) := by
  unfold completeSecond
  exact (passTime_frame _ s).trans (modTimebase_frame _ (fun _ => rfl) (fun _ => rfl) (fun _ => rfl))

theorem passIdle_frame (s : State) : ClockFrame s (passIdle s) := passTime_frame _ s

end Sys2Proof.Machine
end

