-- ==== Sys2Proof/Laws/Queue.lean ====
section
/-! SUPPORT. What a queue action can do (R149 to R153): it replaces the list of queued items, sets waiting marks, and at its end derives
the ALERT state and perhaps a notice; nothing else of the state changes. -/

namespace Sys2Proof.Machine

/-- A property that setting a waiting mark and replacing the queue's list keep. -/
structure MarkClosed (P : State → Prop) : Prop where
  mark : ∀ {m t s}, P s → P (setMark m t s)
  queue : ∀ {q s}, q.length ≤ Config.maxQueue ∨ q.length ≤ s.dispatch.queue.length → P s → P (setQueue q s)

@[simp] theorem setMark_dispatch (m : Option Reason) (t : Thing) (s : State) : (setMark m t s).dispatch = s.dispatch := by
  cases t <;> rfl

theorem insertItem_length (i : Item) (q : List Item) : (insertItem i q).length = q.length + 1 := by
  induction q with
  | nil => rfl
  | cons j q ih => unfold insertItem; split <;> simp_all

variable {P : State → Prop}

theorem dropLast_insert_length {i : Item} {q : List Item} {last : Item} (h : q.getLast? = some last) :
    (insertItem i q.dropLast).length ≤ q.length := by
  cases q with
  | nil => simp at h
  | cons a q => simp [insertItem_length]

theorem filter_lt_of_queued {s : State} {t : Thing} {i : Item} (h : queuedItem s t = some i) :
    (s.dispatch.queue.filter (fun j => decide (j.thing ≠ t))).length < s.dispatch.queue.length := by
  have h1 := List.mem_of_find?_eq_some h
  have h2 := List.find?_some h
  simp only [decide_eq_true_eq] at h2
  refine List.length_filter_lt_length_iff_exists.mpr ⟨i, h1, by simp [h2]⟩

theorem placeItem_kept (hP : MarkClosed P) (i : Item) {s : State} (h : P s) : P (placeItem i s) := by
  unfold placeItem
  split
  · rename_i hlt
    exact hP.queue (.inl (by rw [insertItem_length]; omega)) h
  · split
    · exact h
    · rename_i last hl
      split
      · exact hP.mark (hP.queue (.inr (dropLast_insert_length hl)) h)
      · exact hP.mark h

theorem admitBest_kept (hP : MarkClosed P) {s : State} (h : P s) : P (admitBest s) := by
  unfold admitBest
  split
  · rename_i hlt
    split
    · exact h
    · exact hP.mark (hP.queue (.inl (by rw [insertItem_length]; omega)) h)
  · exact h

theorem withdrawItem_kept (hP : MarkClosed P) (t : Thing) {s : State} (h : P s) : P (withdrawItem t s) := by
  unfold withdrawItem
  split
  · rename_i i hi
    exact admitBest_kept hP (hP.mark (hP.queue (.inr (Nat.le_of_lt (filter_lt_of_queued hi))) h))
  · exact hP.mark h

theorem exchangeLast_kept (hP : MarkClosed P) {s : State} (h : P s) : P (exchangeLast s) := by
  unfold exchangeLast
  split
  · exact h
  · split
    · rename_i w last _ hl
      split
      · exact hP.mark (hP.mark (hP.queue (.inr (dropLast_insert_length hl)) h))
      · exact h
    · exact h

theorem rerankItem_kept (hP : MarkClosed P) (i : Item) {s : State} (h : P s) : P (rerankItem i s) := by
  unfold rerankItem
  split
  · rename_i j hj
    refine exchangeLast_kept hP (hP.queue (.inr ?_) h)
    rw [insertItem_length]
    have := filter_lt_of_queued hj
    omega
  · exact exchangeLast_kept hP (hP.mark h)

theorem handThing_kept (hP : MarkClosed P) (t : Thing) {s : State} (h : P s) : P (handThing t s) := by
  unfold handThing
  split
  · exact h
  · exact placeItem_kept hP _ h
  · exact withdrawItem_kept hP t h
  · split
    · exact h
    · exact rerankItem_kept hP _ h

/-- What setting marks and replacing the queue's list keep, the hand-over of a list of things keeps. -/
theorem handAll_kept (hP : MarkClosed P) (ts : List Thing) {s : State} (h : P s) : P (ts.foldl (fun s t => handThing t s) s) := by
  induction ts generalizing s with
  | nil => exact h
  | cons t ts ih => exact ih (handThing_kept hP t h)

/-! ## Frames -/

/-- What stays as it is when marks are set and the queue's list is replaced. -/
structure MarkFrame (s t : State) : Prop where
  timebase : t.timebase = s.timebase
  gate : t.gate = s.gate
  directory : t.directory = s.directory
  lines : t.lines = s.lines
  intake : t.intake = s.intake
  link : t.link = s.link
  store : t.store = s.store
  tick : t.tick = s.tick
  pending : t.pending = s.pending
  keys : Table.keys t.faults = Table.keys s.faults
  record : ∀ key, (recordOf t key).map Record.unmarked = (recordOf s key).map Record.unmarked
  slot : ∀ n, (slotOf t n).unmarked = (slotOf s n).unmarked
  storms : t.incidents.storms = s.incidents.storms

theorem MarkFrame.refl (s : State) : MarkFrame s s := by constructor <;> intros <;> rfl

theorem Table.keys_modify {α : Type} (t : Table α) (n : Nat) (f : α → α) : Table.keys (Table.modify t n f) = Table.keys t := by
  simp only [Table.keys, Table.modify, List.map_map]
  refine List.map_congr_left (fun e _ => ?_)
  simp only [Function.comp]; split <;> rfl

theorem MarkFrame.setMark {s t : State} (h : MarkFrame s t) (m : Option Reason) (x : Thing) :
    MarkFrame s (Sys2Proof.Machine.setMark m x t) := by
  cases x with
  | record key =>
    refine ⟨h.timebase, h.gate, h.directory, h.lines, h.intake, h.link, h.store, h.tick, h.pending, ?_, ?_, h.slot, h.storms⟩
    · exact (Table.keys_modify t.faults key (fun r => { r with waiting := m })).trans h.keys
    · intro k
      rw [← h.record k]
      by_cases hk : k = key
      · subst hk
        show (recordOf (modRecord k _ t) k).map _ = _
        rw [recordOf_modRecord_self]
        cases recordOf t k <;> rfl
      · show (recordOf (modRecord key _ t) k).map _ = _
        rw [recordOf_modRecord_ne _ _ hk]
  | incident n =>
    refine ⟨h.timebase, h.gate, h.directory, h.lines, h.intake, h.link, h.store, h.tick, h.pending, h.keys, h.record, ?_, h.storms⟩
    intro k
    rw [← h.slot k]
    by_cases hk : k = n
    · subst hk
      show (slotOf (modSlot k _ t) k).unmarked = _
      rw [slotOf_modSlot_self]; rfl
    · show (slotOf (modSlot n _ t) k).unmarked = _
      rw [slotOf_modSlot_ne _ _ hk]

theorem MarkFrame.setQueue {s t : State} (h : MarkFrame s t) (q : List Item) : MarkFrame s (Sys2Proof.Machine.setQueue q t) :=
  ⟨h.timebase, h.gate, h.directory, h.lines, h.intake, h.link, h.store, h.tick, h.pending, h.keys, h.record, h.slot, h.storms⟩

theorem markFrame_closed (s : State) : MarkClosed (MarkFrame s) := ⟨fun h => h.setMark _ _, fun _ h => h.setQueue _⟩

/-- A queue action leaves every block but the queue as it is, and records and slots but for their waiting marks. -/
theorem queueAction_frame (ts : List Thing) (s : State) : MarkFrame s (queueAction ts s) := by
  have h := handAll_kept (markFrame_closed s) ts (MarkFrame.refl s)
  unfold queueAction
  generalize List.foldl (fun s t => handThing t s) s ts = u at h ⊢
  have h2 : MarkFrame s (noteHead (headOf s) u) := by
    unfold noteHead
    split
    · exact ⟨h.timebase, h.gate, h.directory, h.lines, h.intake, h.link, h.store, h.tick, h.pending, h.keys, h.record, h.slot, h.storms⟩
    · exact h
  exact ⟨h2.timebase, h2.gate, h2.directory, h2.lines, h2.intake, h2.link, h2.store, h2.tick, h2.pending, h2.keys, h2.record, h2.slot,
    h2.storms⟩

/-- The settings of the Dispatch Queue and the flash pattern's state, which marks and queue lists do not touch. -/
structure DispatchFrame (s t : State) : Prop where
  settings : t.dispatch.alertSettings = s.dispatch.alertSettings
  notices : t.dispatch.notices = s.dispatch.notices
  notice : t.dispatch.notice = s.dispatch.notice
  alert : t.dispatch.alert = s.dispatch.alert
  pinHigh : t.dispatch.pinHigh = s.dispatch.pinHigh
  flash : t.dispatch.flash = s.dispatch.flash

theorem dispatchFrame_closed (s : State) : MarkClosed (DispatchFrame s) := by
  refine ⟨fun {m t u} h => ?_, fun _ h => ⟨h.settings, h.notices, h.notice, h.alert, h.pinHigh, h.flash⟩⟩
  constructor <;> rw [setMark_dispatch]
  exacts [h.settings, h.notices, h.notice, h.alert, h.pinHigh, h.flash]

theorem handAll_dispatch (ts : List Thing) (s : State) : DispatchFrame s (ts.foldl (fun s t => handThing t s) s) :=
  handAll_kept (dispatchFrame_closed s) ts ⟨rfl, rfl, rfl, rfl, rfl, rfl⟩

end Sys2Proof.Machine
end

