-- ==== Sys2Proof/Laws/Closed.lean ====
section
/-! SUPPORT. What every operation can do to the state, said once: a property that is closed under the few primitive changes below is kept by
every operation of the part. One lemma `<operation>_closed` per shared operation. -/

namespace Sys2Proof.Machine

/-- A change that keeps a record fitting its condition, and its waiting mark. -/
def RecordChange (key : Nat) (f : Record → Record) : Prop := ∀ r, (RecordFits key r → RecordFits key (f r)) ∧ (f r).waiting = r.waiting

/-- A change that keeps an outstation's failure count in its range and its point map in its canonical form. -/
def StationChange (f : Station → Station) : Prop :=
  ∀ st, (st.failures ≤ 15 → (f st).failures ≤ 15) ∧ (Table.wf st.pointMap = true → Table.wf (f st).pointMap = true)

/-- An outstation that is new, or keeps its failure count or point map from the slot it replaces. -/
structure StationKept (s : State) (n : Nat) (v : Station) : Prop where
  failures : v.failures = 0 ∨ ∃ st, stationOf s n = some st ∧ v.failures = st.failures
  pointMap : v.pointMap = [] ∨ ∃ st, stationOf s n = some st ∧ v.pointMap = st.pointMap

/-- A property of states that the primitive changes keep which applying an entry, a record's tick and the Incident Table make. -/
structure EntryClosed (P : State → Prop) : Prop where
  gate : ∀ {s v}, (GateSized s.gate → GateSized v) → P s → P { s with gate := v }
  station : ∀ {s n f}, StationChange f → P s → P (modStation n f s)
  asset : ∀ {s n f}, P s → P (modAsset n f s)
  recordInsert : ∀ {s key r}, s.faults.length < Config.maxRecords → RecordFits key r → r.waiting = none → P s →
    P { s with faults := Table.insert s.faults key r }
  recordErase : ∀ {s key}, P s → P { s with faults := Table.erase s.faults key }
  record : ∀ {s key f}, RecordChange key f → P s → P (modRecord key f s)
  slot : ∀ {s n v}, v.waiting = none ∨ v.waiting = (slotOf s n).waiting → P s → P (setSlot n v s)
  window : ∀ {s a w}, (windowFits (windowOf s a) → windowFits w) → P s → P (setWindow a w s)
  queue : ∀ {s ts}, P s → P (queueAction ts s)
  flags : ∀ {s f}, P s → P (modFlags f s)

/-- A property of states that the primitive changes of the state keep. -/
structure Closed (P : State → Prop) : Prop extends EntryClosed P where
  timebase : ∀ {s v}, (TimebaseSized s.timebase → TimebaseSized v) → P s → P { s with timebase := v }
  stationInsert : ∀ {s n v}, StationKept s n v → P s →
    P { s with directory := { s.directory with stations := Table.insert s.directory.stations n v } }
  stationErase : ∀ {s n}, P s → P { s with directory := { s.directory with stations := Table.erase s.directory.stations n } }
  assetInsert : ∀ {s n v}, P s → P { s with directory := { s.directory with assets := Table.insert s.directory.assets n v } }
  assetErase : ∀ {s n}, P s → P { s with directory := { s.directory with assets := Table.erase s.directory.assets n } }
  profiles : ∀ {s v}, P s → P { s with directory := { s.directory with profiles := v } }
  area : ∀ {s n v}, P s → P { s with directory := { s.directory with areas := Table.store {} s.directory.areas n v } }
  line : ∀ {s l f}, (LineSized (lineOf s l) → LineSized (f (lineOf s l))) → P s → P (modLine l f s)
  intake : ∀ {s v}, (IntakeSized s.intake → IntakeSized v) → P s → P { s with intake := v }
  noticeTaken : ∀ {s}, P s → P { s with dispatch := { s.dispatch with notice := none } }
  flash : ∀ {s}, P s → P (modDispatch flashStep s)
  alert : ∀ {s v}, P s → P (modDispatch (applyAlert v) s)
  notices : ∀ {s v}, P s → P (applyNotices v s)
  link : ∀ {s v}, v.requests.length ≤ Config.requestFrames ∨ v.requests.length ≤ s.link.requests.length → P s → P { s with link := v }
  saveCount : ∀ {s v n}, s.store.saving = some v → n ≤ v.count → P s → P { s with store := { s.store with saving := some { v with count := n } } }
  saveEnd : ∀ {s}, P s → P { s with store := { s.store with saving := none } }
  saveStart : ∀ {s}, P s → P (startSave s)
  saveDone : ∀ {s}, P s → P (completeSave s)
  tick : ∀ {s v}, P s → P { s with tick := v }
  pending : ∀ {s v}, P s → P { s with pending := v }
  powerOn : ∀ {s}, P s → P (powerOnState s)
  restart : ∀ {s}, P s → P (restartState s)
  factory : ∀ {s}, P s → P (factoryState s)

variable {P : State → Prop}

/-- What each step of a fold keeps, the fold keeps. -/
theorem foldl_closed {α : Type} {f : State → α → State} (h : ∀ s a, P s → P (f s a)) : ∀ (l : List α) (s : State), P s → P (l.foldl f s)
  | [], _, hs => hs
  | a :: l, s, hs => foldl_closed h l (f s a) (h s a hs)

/-! ## Records -/

theorem recordChange_of {key : Nat} {f : Record → Record}
    (h : ∀ r, (f r).trail = r.trail ∧ (f r).recurrence = r.recurrence ∧ (f r).terms = r.terms ∧ (f r).evidence = r.evidence ∧
      (f r).windowLeft = r.windowLeft ∧ (f r).waiting = r.waiting) : RecordChange key f := by
  intro r
  obtain ⟨h1, h2, h3, h4, h5, h6⟩ := h r
  exact ⟨fun hr => ⟨h1 ▸ hr.trail, h2 ▸ hr.recurrence, fun c => h3 ▸ hr.term c, fun c => h4 ▸ hr.evidence c, fun c => h5 ▸ hr.window c⟩, h6⟩

theorem addTrail_length (t : List TrailEntry) (e : TrailEntry) : (addTrail t e).length ≤ 4 := by
  unfold addTrail; split <;> simp <;> omega

theorem termsOf_time {c : Condition} (p : Profile) (h : conditionMode c ≠ .count) : ∃ t, (termsOf c p).confirm = .time t := by
  unfold termsOf
  cases hc : conditionMode c with
  | count => exact absurd hc h
  | persist => exact ⟨_, rfl⟩
  | gated => exact ⟨_, rfl⟩

theorem enterState_change (key : Nat) (st : RecordState) (t : Seconds) : RecordChange key (enterState st t) :=
  fun _ => ⟨fun hr => ⟨addTrail_length _ _, hr.recurrence, hr.term, hr.evidence, hr.window⟩, rfl⟩

theorem takeTermsChange (s : State) (key : Nat) : RecordChange key (fun r => { r with terms := profileTerms s key }) :=
  fun _ => ⟨fun hr => ⟨hr.trail, hr.recurrence, fun h => termsOf_time _ h, hr.evidence, hr.window⟩, rfl⟩

theorem confirmFields_change (key : Nat) (t : Seconds) (q : Quality) : RecordChange key (confirmFields t q) :=
  fun _ => ⟨fun hr => ⟨addTrail_length _ _, hr.recurrence, hr.term, hr.evidence, fun _ => rfl⟩, rfl⟩

theorem addEvidence_change (key w : Nat) : RecordChange key (addEvidence w) := by
  intro r
  unfold addEvidence
  split
  · rename_i hc
    refine ⟨fun hr => ⟨hr.trail, hr.recurrence, hr.term, fun h => ?_, hr.window⟩, rfl⟩
    obtain ⟨t, ht⟩ := hr.term h
    rw [hc] at ht; cases ht
  · exact ⟨id, rfl⟩

theorem restartWindow_change (key w : Nat) : RecordChange key (restartWindow w) := by
  intro r
  unfold restartWindow
  split
  · rename_i hc
    refine ⟨fun hr => ⟨hr.trail, hr.recurrence, hr.term, fun h => ?_, fun h => ?_⟩, rfl⟩ <;>
    · obtain ⟨t, ht⟩ := hr.term h
      rw [hc] at ht; cases ht
  · exact ⟨id, rfl⟩

theorem RecordChange.comp {key : Nat} {f g : Record → Record} (hf : RecordChange key f) (hg : RecordChange key g) :
    RecordChange key (fun r => g (f r)) := fun r => ⟨fun hr => (hg _).1 ((hf r).1 hr), (hg _).2.trans (hf r).2⟩

theorem riseEscTimer_change (key : Nat) : RecordChange key riseEscTimer := by
  intro r
  unfold riseEscTimer
  split
  · exact ⟨fun hr => ⟨hr.trail, hr.recurrence, hr.term, hr.evidence, hr.window⟩, rfl⟩
  · exact ⟨id, rfl⟩

theorem countTick_change (key : Nat) : RecordChange key countTick := by
  intro r
  unfold countTick
  split
  · split
    · exact ⟨fun hr => ⟨hr.trail, hr.recurrence, hr.term, hr.evidence, hr.window⟩, rfl⟩
    · refine ⟨fun hr => ⟨hr.trail, hr.recurrence, hr.term, hr.evidence, fun h => ?_⟩, rfl⟩
      show r.windowLeft.map _ = none
      rw [hr.window h]; rfl
  · exact riseEscTimer_change key r
  · exact ((recordChange_of (f := fun r => { r with timer := r.timer + 1 }) fun _ => ⟨rfl, rfl, rfl, rfl, rfl, rfl⟩).comp
      (riseEscTimer_change key)) r
  · exact ⟨id, rfl⟩

theorem newRecord_fits (s : State) (key t w : Nat) : RecordFits key (newRecord t (profileTerms s key) w) := by
  refine ⟨by simp [newRecord], by simp [newRecord], fun h => termsOf_time _ h, fun h => ?_, fun h => ?_⟩ <;>
  · obtain ⟨n, hn⟩ := termsOf_time (assetProfile s (keyAsset key)) h
    simp only [newRecord, profileTerms, hn]

/-! ## Slots and windows -/

theorem modSlot_closed (hP : EntryClosed P) {n : Nat} {f : Slot → Slot} {s : State} (h : P s)
    (hf : ∀ v, (f v).waiting = v.waiting := by intro _; rfl) : P (modSlot n f s) := hP.slot (.inr (hf _)) h

theorem station_closed (hP : EntryClosed P) {n : Nat} {f : Station → Station} {s : State} (h : P s)
    (hf : StationChange f := by exact fun _ => ⟨id, id⟩) : P (modStation n f s) := hP.station hf h

theorem joinSlot_closed (hP : EntryClosed P) (n : Nat) (s : State) (key : Nat) (h : P s) : P (joinSlot n s key) :=
  hP.record (recordChange_of fun _ => ⟨rfl, rfl, rfl, rfl, rfl, rfl⟩) (modSlot_closed hP h)

theorem joinAll_closed (hP : EntryClosed P) (n : Nat) (keys : List Nat) {s : State} (h : P s) : P (joinAll n keys s) :=
  foldl_closed (fun s key => joinSlot_closed hP n s key) keys s h

theorem releaseMember_closed (hP : EntryClosed P) (n : Nat) (s : State) (key : Nat) (h : P s) : P (releaseMember n s key) :=
  hP.record (recordChange_of fun _ => ⟨rfl, rfl, rfl, rfl, rfl, rfl⟩) (modSlot_closed hP h)

theorem releaseAll_closed (hP : EntryClosed P) (n : Nat) {s : State} (h : P s) : P (releaseAll n s) :=
  foldl_closed (fun s key => releaseMember_closed hP n s key) _ s h

theorem freeSlot_closed (hP : EntryClosed P) (n : Nat) {s : State} (h : P s) : P (freeSlot n s) := hP.slot (.inl rfl) h

theorem memberGone_closed (hP : EntryClosed P) (n key : Nat) {s : State} (h : P s) : P (memberGone n key s) := by
  unfold memberGone
  split
  · exact modSlot_closed hP h
  · split <;> exact modSlot_closed hP h
  · split <;> exact modSlot_closed hP h

theorem takeRecord_closed (hP : EntryClosed P) (key : Nat) {s : State} (h : P s) : P (takeRecord key s) := by
  unfold takeRecord
  split
  · exact h
  · rename_i r _
    dsimp only
    split
    · exact hP.recordErase h
    · exact memberGone_closed hP _ _ (hP.recordErase h)

theorem removeRecord_closed (hP : EntryClosed P) (key : Nat) {s : State} (h : P s) : P (removeRecord key s) :=
  hP.queue (takeRecord_closed hP key h)

theorem memberRestored_closed (hP : EntryClosed P) (key : Nat) {s : State} (h : P s) : P (memberRestored key s) := by
  unfold memberRestored
  split
  · exact h
  · split
    · exact h
    · exact takeRecord_closed hP key h

/-- R135: the rise of the current bucket keeps the window in its form. -/
theorem bumpWindow_fits {w : List Nat} (h : windowFits w) : windowFits (bumpWindow w) := by
  have key : ∀ w : List Nat, (∀ n ∈ w, n ≤ 255) → (bumpWindow w).length = w.length ∧ ∀ n ∈ bumpWindow w, n ≤ 255 := by
    intro w
    induction w with
    | nil => exact fun _ => ⟨rfl, fun _ h => (nomatch h)⟩
    | cons a w ih =>
      cases w with
      | nil => exact fun _ => ⟨rfl, fun n hn => by rw [List.mem_singleton.mp hn]; exact Nat.min_le_left _ _⟩
      | cons b w =>
        intro hb
        obtain ⟨h1, h2⟩ := ih (fun n hn => hb n (List.mem_cons_of_mem _ hn))
        refine ⟨congrArg Nat.succ h1, fun n hn => ?_⟩
        rcases List.mem_cons.mp hn with rfl | hn
        · exact hb _ List.mem_cons_self
        · exact h2 n hn
  exact ⟨(key w h.2).1.trans h.1, (key w h.2).2⟩

/-- R136: the rotation keeps the window in its form. -/
theorem rotateWindow_fits {w : List Nat} (h : windowFits w) : windowFits (rotateWindow w) := by
  refine ⟨by simp [rotateWindow, h.1], fun n hn => ?_⟩
  rcases List.mem_append.mp hn with hn | hn
  · exact h.2 n (List.mem_of_mem_drop hn)
  · rw [List.mem_singleton.mp hn]; exact Nat.zero_le _

theorem countStorm_closed (hP : EntryClosed P) (a : Nat) {s : State} (h : P s) : P (countStorm a s) := by
  unfold countStorm
  split
  · exact h
  · exact hP.window bumpWindow_fits h

theorem openFeederSlots_closed (hP : EntryClosed P) (f key : Nat) {s : State} (h : P s) : P (openFeederSlots f key s) :=
  joinAll_closed hP _ _ (joinSlot_closed hP _ _ _ (modSlot_closed hP h))

theorem rootSlots_closed (hP : EntryClosed P) (key : Nat) (x : AssetSettings) {s : State} (h : P s) : P (rootSlots key x s) := by
  unfold rootSlots
  split
  · exact openFeederSlots_closed hP _ _ h
  · exact h

theorem feederClaimSlots_closed (hP : EntryClosed P) (key : Nat) (x : AssetSettings) {s : State} (h : P s) : P (feederClaimSlots key x s) := by
  unfold feederClaimSlots
  split
  · exact joinSlot_closed hP _ _ _ h
  · exact h

theorem areaTestSlots_closed (hP : EntryClosed P) (a : Nat) {s : State} (h : P s) : P (areaTestSlots a s) := by
  unfold areaTestSlots
  split
  · exact joinAll_closed hP _ _ (modSlot_closed hP h)
  · exact h

theorem areaClaimSlots_closed (hP : EntryClosed P) (a key : Nat) {s : State} (h : P s) : P (areaClaimSlots a key s) := by
  unfold areaClaimSlots
  dsimp only
  split
  · exact joinSlot_closed hP _ _ _ h
  · exact h

theorem claimSlots_closed (hP : EntryClosed P) (key : Nat) {s : State} (h : P s) : P (claimSlots key s) := by
  unfold claimSlots
  split
  · exact h
  · rename_i x _
    have h1 := feederClaimSlots_closed hP key x.settings (rootSlots_closed hP key x.settings (countStorm_closed hP x.settings.area h))
    dsimp only
    split
    · exact h1
    · exact areaClaimSlots_closed hP _ _ (areaTestSlots_closed hP _ h1)

theorem openStation_closed (hP : EntryClosed P) (n : Nat) {s : State} (h : P s) : P (openStation n s) :=
  hP.queue (joinAll_closed hP _ _ (modSlot_closed hP h))

theorem restoreStation_closed (hP : EntryClosed P) (n : Nat) {s : State} (h : P s) : P (restoreStation n s) :=
  hP.queue (modSlot_closed hP (releaseAll_closed hP _ h))

theorem expireRelease_closed (hP : EntryClosed P) (f : Nat) {s : State} (h : P s) : P (expireRelease f s) :=
  hP.queue (modSlot_closed hP (releaseAll_closed hP _ (modSlot_closed hP h)))

theorem calmSlots_closed (hP : EntryClosed P) (s : State) (a : Nat) (h : P s) : P (calmSlots s a) := by
  unfold calmSlots
  dsimp only
  split
  · split <;> exact modSlot_closed hP h
  · exact h

theorem rotateStorms_closed (hP : EntryClosed P) {s : State} (h : P s) : P (rotateStorms s) :=
  hP.queue (foldl_closed (calmSlots_closed hP) _ _ (foldl_closed (fun _ _ h => hP.window rotateWindow_fits h) _ _ h))

theorem markSlotSeen_closed (hP : EntryClosed P) (n : Nat) {s : State} (h : P s) : P (markSlotSeen n s) := by
  unfold markSlotSeen
  refine foldl_closed (f := fun s key => modRecord key (fun r => { r with seen := true }) s) (fun s key h => ?_) _ _ (modSlot_closed hP h)
  exact hP.record (recordChange_of fun _ => ⟨rfl, rfl, rfl, rfl, rfl, rfl⟩) h

theorem breakSlot_closed (hP : EntryClosed P) (n : Nat) {s : State} (h : P s) : P (breakSlot n s) :=
  hP.queue (freeSlot_closed hP n (releaseAll_closed hP n h))

/-! ## The Qualifier -/

theorem escalationTest_closed (hP : EntryClosed P) (key : Nat) {s : State} (h : P s) : P (escalationTest key s) := by
  unfold escalationTest
  split
  · exact h
  · split
    · exact hP.queue (hP.record (recordChange_of fun _ => ⟨rfl, rfl, rfl, rfl, rfl, rfl⟩) h)
    · exact h

theorem takeTerms_closed (hP : EntryClosed P) (key : Nat) {s : State} (h : P s) : P (takeTerms key s) :=
  escalationTest_closed hP key (hP.record (takeTermsChange s key) h)

theorem confirmRecord_closed (hP : EntryClosed P) (key : Nat) {s : State} (h : P s) : P (confirmRecord key s) :=
  hP.queue (claimSlots_closed hP key (hP.record (confirmFields_change _ _ _) (takeTerms_closed hP key h)))

theorem confirmIfFull_closed (hP : EntryClosed P) (key : Nat) {s : State} (h : P s) : P (confirmIfFull key s) := by
  unfold confirmIfFull
  split
  · exact h
  · split
    · exact confirmRecord_closed hP key h
    · exact h

theorem flags_closed (hP : EntryClosed P) (f : Sticky → Sticky) {s : State} (h : P s) : P (modFlags f s) := hP.flags h

theorem createRecord_closed (hP : EntryClosed P) (key w : Nat) {s : State} (h : P s) : P (createRecord key w s) := by
  unfold createRecord
  split
  · rename_i hlt
    exact confirmIfFull_closed hP key (hP.recordInsert hlt (newRecord_fits s key _ w) rfl h)
  · exact flags_closed hP _ h

theorem enterRestoring_closed (hP : EntryClosed P) (key : Nat) {s : State} (h : P s) : P (enterRestoring key s) :=
  takeTerms_closed hP key (hP.record (enterState_change _ _ _) h)

theorem returnToActive_closed (hP : EntryClosed P) (key w : Nat) {s : State} (h : P s) : P (returnToActive key w s) :=
  takeTerms_closed hP key (hP.record ((enterState_change _ _ _).comp (addEvidence_change _ _)) h)

theorem enterRestored_closed (hP : EntryClosed P) (key : Nat) {s : State} (h : P s) : P (enterRestored key s) := by
  have h2 : P (modRecord key (fun r => { enterState .restored (now (takeTerms key s)) r with restored := some (now (takeTerms key s)) })
      (takeTerms key s)) :=
    hP.record (fun r => ⟨fun hr => ⟨addTrail_length _ _, hr.recurrence, hr.term, hr.evidence, hr.window⟩, rfl⟩) (takeTerms_closed hP key h)
  unfold enterRestored
  dsimp only
  split
  · exact h2
  · split
    · exact removeRecord_closed hP key h2
    · exact hP.queue (memberRestored_closed hP key h2)

theorem recur_closed (hP : EntryClosed P) (key w : Nat) {s : State} (h : P s) : P (recur key w s) := by
  refine confirmIfFull_closed hP key (hP.queue (hP.record ?_ (takeTerms_closed hP key h)))
  refine RecordChange.comp (f := fun r => { enterState .qualifying _ r with recurrence := min 255 (r.recurrence + 1) }) ?_ (restartWindow_change key w)
  exact fun r => ⟨fun hr => ⟨addTrail_length _ _, by show min 255 _ ≤ 255; omega, hr.term, hr.evidence, hr.window⟩, rfl⟩

theorem observeRecord_closed (hP : EntryClosed P) (key w : Nat) (p : Bool) (r : Record) {s : State} (h : P s) :
    P (observeRecord key w p r s) := by
  unfold observeRecord
  split
  · exact confirmIfFull_closed hP key (hP.record (addEvidence_change _ _) h)
  · split
    · exact removeRecord_closed hP key h
    · exact h
  · exact hP.record (addEvidence_change _ _) h
  · exact enterRestoring_closed hP key h
  · exact returnToActive_closed hP key w h
  · exact h
  · exact recur_closed hP key w h
  · exact h

theorem observe_closed (hP : EntryClosed P) (a : Nat) (c : Condition) (p : Bool) (w : Nat) {s : State} (h : P s) : P (observe a c p w s) := by
  unfold observe
  dsimp only
  split
  · exact h
  · split
    · split
      · exact createRecord_closed hP _ w h
      · exact h
    · exact observeRecord_closed hP _ w p _ (hP.record (recordChange_of fun _ => ⟨rfl, rfl, rfl, rfl, rfl, rfl⟩) h)

theorem escalationTick_closed (hP : EntryClosed P) (key : Nat) {s : State} (h : P s) : P (escalationTick key s) :=
  escalationTest_closed hP key (hP.record (riseEscTimer_change key) h)

theorem clearingTick_closed (hP : EntryClosed P) (b : Bool) (key : Nat) (r : Record) {s : State} (h : P s) : P (clearingTick b key r s) := by
  unfold clearingTick
  split
  · exact enterRestored_closed hP key (escalationTick_closed hP key h)
  · dsimp only
    split
    · exact hP.record (recordChange_of fun _ => ⟨rfl, rfl, rfl, rfl, rfl, rfl⟩) (enterRestored_closed hP key h)
    · exact enterRestored_closed hP key h

theorem recordTick_closed (hP : EntryClosed P) (b : Bool) (key : Nat) {s : State} (h : P s) : P (recordTick b key s) := by
  unfold recordTick
  split
  · exact h
  · split
    · exact h
    · split
      · exact confirmRecord_closed hP key h
      · split
        · exact removeRecord_closed hP key h
        · split
          · exact clearingTick_closed hP b key _ h
          · exact escalationTest_closed hP key (hP.record (countTick_change key) h)

theorem recordTickBy_closed (hP : EntryClosed P) (order : Record → Bool) (key : Nat) {s : State} (h : P s) : P (recordTickBy order key s) := by
  unfold recordTickBy
  split
  · exact h
  · exact recordTick_closed hP _ key h

theorem recordTickDefault_closed (hP : EntryClosed P) (s : State) (key : Nat) (h : P s) : P (recordTickDefault s key) :=
  recordTickBy_closed hP _ key h

theorem takeUpCheck_window {r : Record} {new : Terms} {left : Seconds} (h : takeUpCheck r new = .window left) :
    ∃ n w, new.confirm = .count n w := by
  unfold takeUpCheck at h
  split at h
  · split at h
    · split at h <;> cases h
    · rename_i hn; exact ⟨_, _, hn⟩
    · split at h <;> cases h
  · split at h <;> cases h
  · cases h

theorem takeUpRecord_closed (hP : EntryClosed P) (s : State) (key : Nat) (h : P s) : P (takeUpRecord s key) := by
  unfold takeUpRecord
  split
  · exact h
  · dsimp only
    refine escalationTest_closed hP key ?_
    have h1 : P (modRecord key (fun r => { r with terms := profileTerms s key }) s) := hP.record (takeTermsChange s key) h
    split
    · exact h1
    · exact confirmRecord_closed hP key h1
    · exact enterRestored_closed hP key h1
    · exact removeRecord_closed hP key h1
    · rename_i left hw
      obtain ⟨n, w, hc⟩ := takeUpCheck_window hw
      refine hP.record (fun r => ⟨fun hr => ⟨hr.trail, hr.recurrence, hr.term, hr.evidence, fun hm => ?_⟩, rfl⟩) h1
      obtain ⟨t, ht⟩ := termsOf_time (assetProfile s (keyAsset key)) hm
      simp only [profileTerms] at hc
      rw [hc] at ht; cases ht

theorem takeUpProfile_closed (hP : EntryClosed P) (p : Nat) {s : State} (h : P s) : P (takeUpProfile p s) :=
  foldl_closed (takeUpRecord_closed hP) _ _ h

/-! ## The Classifier and the Decoder -/

theorem observeAll_closed (hP : EntryClosed P) (a : Nat) (os : List Observation) {s : State} (h : P s) : P (observeAll a os s) :=
  foldl_closed (fun _ _ h => observe_closed hP a _ _ _ h) os s h

theorem writeEstimate_closed (hP : EntryClosed P) (key n : Nat) {s : State} (h : P s) : P (writeEstimate key n s) :=
  hP.record (recordChange_of fun r => by split <;> exact ⟨rfl, rfl, rfl, rfl, rfl, rfl⟩) h

theorem judgedReading_closed (hP : EntryClosed P) (a : Nat) (x : Asset) (p : Profile) (v : Nat) {s : State} (h : P s) :
    P (judgedReading a x p v s) := by
  unfold judgedReading
  dsimp only
  split
  · exact writeEstimate_closed hP _ _ (writeEstimate_closed hP _ _ (observeAll_closed hP _ _ (hP.asset h)))
  · exact observeAll_closed hP _ _ (hP.asset h)

theorem mainReading_closed (hP : EntryClosed P) (a v : Nat) {s : State} (h : P s) : P (mainReading a v s) := by
  unfold mainReading
  split
  · exact h
  · dsimp only
    split
    · exact hP.asset h
    · split
      · exact observe_closed hP _ _ _ _ (hP.asset h)
      · exact hP.asset h
      · exact judgedReading_closed hP _ _ _ _ (hP.asset h)
    · exact judgedReading_closed hP _ _ _ _ (hP.asset h)
    · exact judgedReading_closed hP _ _ _ _ (hP.asset h)

theorem classify_closed (hP : EntryClosed P) (a : Nat) (r : Role) (d : EntryData) {s : State} (h : P s) : P (classify a r d s) := by
  unfold classify
  split
  · exact mainReading_closed hP a _ h
  · exact observe_closed hP _ _ _ _ (hP.asset h)
  · exact observe_closed hP _ _ _ _ h
  · exact observe_closed hP _ _ _ _ h
  · exact observe_closed hP _ _ _ _ h
  · exact h

theorem setGate_closed (hP : EntryClosed P) (v : GateValue) {s : State} (h : P s) : P (setGate v s) := by
  unfold setGate
  split
  · exact h
  · exact hP.gate (fun g => ⟨g.settleTime, g.settleTime⟩) h

theorem clearGate_closed (hP : EntryClosed P) {s : State} (h : P s) : P (clearGate s) :=
  hP.gate (fun g => ⟨Nat.zero_le _, g.settleTime⟩) h

theorem routeGate_closed (hP : EntryClosed P) (n : Nat) (e : Entry) {s : State} (h : P s) : P (routeGate n e s) := by
  unfold routeGate
  split
  · split
    · exact setGate_closed hP _ h
    · exact h
  · exact h

theorem markUnmapped_closed (hP : EntryClosed P) (n : Nat) {s : State} (h : P s) : P (markUnmapped n s) := by
  unfold markUnmapped raiseUnmapped
  exact flags_closed hP _ (station_closed hP h)

theorem applyOne_closed (hP : EntryClosed P) (b : Block) (e : Entry) {s : State} (h : P s) : P (applyOne b e s) := by
  unfold applyOne
  split
  · exact h
  · split
    · exact h
    · dsimp only
      split
      · exact classify_closed hP _ _ _ (routeGate_closed hP _ _ h)
      · split
        · exact routeGate_closed hP _ _ h
        · exact markUnmapped_closed hP _ (routeGate_closed hP _ _ h)

/-- What applying an entry, a record's tick and the Incident Table leave as they are. -/
structure EntryFrame (s t : State) : Prop where
  timebase : t.timebase = s.timebase
  lines : t.lines = s.lines
  intake : t.intake = s.intake
  store : t.store = s.store
  tick : t.tick = s.tick
  pending : t.pending = s.pending

theorem entryFrame_closed (s : State) : EntryClosed (EntryFrame s) where
  gate _ h := ⟨h.1, h.2, h.3, h.4, h.5, h.6⟩
  station _ h := ⟨h.1, h.2, h.3, h.4, h.5, h.6⟩
  asset h := ⟨h.1, h.2, h.3, h.4, h.5, h.6⟩
  recordInsert _ _ _ h := ⟨h.1, h.2, h.3, h.4, h.5, h.6⟩
  recordErase h := ⟨h.1, h.2, h.3, h.4, h.5, h.6⟩
  record _ h := ⟨h.1, h.2, h.3, h.4, h.5, h.6⟩
  slot _ h := ⟨h.1, h.2, h.3, h.4, h.5, h.6⟩
  window _ h := ⟨h.1, h.2, h.3, h.4, h.5, h.6⟩
  queue {t ts} h :=
    have f := queueAction_frame ts t
    ⟨f.timebase.trans h.1, f.lines.trans h.2, f.intake.trans h.3, f.store.trans h.4, f.tick.trans h.5, f.pending.trans h.6⟩
  flags h := ⟨h.1, h.2, h.3, h.4, h.5, h.6⟩

/-- An entry leaves the lines, the intake, the Timebase, the store and the tick as they are. -/
theorem applyOne_frame (b : Block) (e : Entry) (s : State) : EntryFrame s (applyOne b e s) :=
  applyOne_closed (entryFrame_closed s) b e ⟨rfl, rfl, rfl, rfl, rfl, rfl⟩

/-! ## The intake -/

theorem modIntake_closed (hP : Closed P) {f : Intake → Intake} {s : State} (hf : IntakeSized s.intake → IntakeSized (f s.intake))
    (h : P s) : P (modIntake f s) := hP.intake hf h

/-- How many FILLED slots a change of one slot leaves. -/
theorem countP_set (p : IntakeSlot → Bool) : ∀ (l : List IntakeSlot) (i : Nat) (w v : IntakeSlot), l[i]? = some w →
    (l.set i v).countP p + (p w).toNat = l.countP p + (p v).toNat
  | [], _, _, _, h => by simp at h
  | a :: l, 0, w, v, h => by
    simp only [List.getElem?_cons_zero, Option.some.injEq] at h
    subst h
    simp only [List.set_cons_zero, List.countP_cons]
    cases p a <;> cases p v <;> simp
  | a :: l, i + 1, w, v, h => by
    have := countP_set p l i w v (by simpa using h)
    simp only [List.set_cons_succ, List.countP_cons]
    omega

/-- The slot that `freeIndex` names is FREE. -/
theorem freeIndex_free {l : List IntakeSlot} {i : Nat} (h : freeIndex l = some i) : l[i]? = some .free := by
  obtain ⟨hi, h1, _⟩ := List.findIdx?_eq_some_iff_getElem.mp h
  rw [List.getElem?_eq_getElem hi, of_decide_eq_true h1]

/-- The slot that `reservedIndex` names is RESERVED. -/
theorem reservedIndex_reserved {l : List IntakeSlot} {m : FieldLine} {i : Nat} (h : reservedIndex l m = some i) :
    l[i]? = some (.reserved m) := by
  obtain ⟨hi, h1, _⟩ := List.findIdx?_eq_some_iff_getElem.mp h
  rw [List.getElem?_eq_getElem hi, of_decide_eq_true h1]

/-- R59: the wait list goes on holding a line at most once. -/
theorem joinWaitList_nodup {l : FieldLine} {w : List FieldLine} (h : w.Nodup) : (joinWaitList l w).Nodup := by
  unfold joinWaitList
  split
  · exact h
  · rename_i hl
    rw [List.nodup_append]
    exact ⟨h, List.nodup_singleton l, fun m ha n hn => by rintro rfl; rw [List.mem_singleton.mp hn] at ha; exact hl ha⟩

theorem takeBlock_closed (hP : Closed P) {s : State} (h : P s) : P (takeBlock s) := by
  unfold takeBlock
  split
  · rename_i i rest hd ho
    refine modIntake_closed hP (fun k => ⟨k.slots, ?_, k.waiting⟩) h
    have := k.order
    rw [hd, ho] at this
    exact this
  · exact h

/-- R62: the end of a block's decoding frees the slot that the Decoder works on. -/
theorem finishBlock_closed (hP : Closed P) {i n : Nat} {b : Block} {s : State} (hd : s.intake.decoder = .decoding i n)
    (hb : s.intake.slots[i]? = some (.filled b)) (h : P s) : P (finishBlock i s) := by
  refine modIntake_closed hP (fun k => ⟨by simpa using k.slots, ?_, k.waiting⟩) h
  have h1 := k.order
  have h2 := countP_set IntakeSlot.isFilled _ i _ .free hb
  rw [hd] at h1
  simp only [Decoder.blocks, IntakeSlot.isFilled, Bool.toNat_true, Bool.toNat_false] at h1 h2 ⊢
  omega

theorem decodeStep_closed (hP : Closed P) {s : State} (h : P s) : P (decodeStep s) := by
  unfold decodeStep
  split
  · exact h
  · rename_i i n hd
    split
    · rename_i b hb
      split
      · exact finishBlock_closed hP hd hb h
      · rename_i e _
        have hf := (applyOne_frame b e s).intake
        have h1 := applyOne_closed hP.toEntryClosed b e h
        dsimp only
        split
        · refine modIntake_closed hP (fun k => ⟨k.slots, ?_, k.waiting⟩) h1
          have := k.order
          rw [hf, hd] at this
          rw [hf]; exact this
        · exact finishBlock_closed hP (hf ▸ hd) (hf ▸ hb) h1
    · exact h

/-! ## The field lines -/

theorem modLine_closed (hP : Closed P) {l : FieldLine} {f : LineController → LineController} {s : State}
    (h : P s) (hf : LineSized (lineOf s l) → LineSized (f (lineOf s l)) := by exact fun h => ⟨h.list, h.interval, h.setting, h.driver, h.poll⟩) :
    P (modLine l f s) := hP.line hf h

/-- A line that waits out the guard has its driver released. -/
theorem awaitGuard_sized {c : LineController} (h : c.list.length ≤ Config.maxInterrogation) (h2 : c.interval ≤ 600)
    (h3 : c.settings.interval ≤ 600) : LineSized (awaitGuard c) :=
  ⟨h, h2, h3, by simp [awaitGuard], fun _ _ h => (nomatch h)⟩

theorem grantSlot_closed (hP : Closed P) (l : FieldLine) {i : Nat} {s : State} (hi : freeIndex s.intake.slots = some i) (h : P s) :
    P (grantSlot l i s) := by
  unfold grantSlot enterPolling
  refine modLine_closed hP (modIntake_closed hP (fun k => ⟨by simpa using k.slots, ?_, k.waiting⟩) h)
    (fun c => awaitGuard_sized c.list c.interval c.setting)
  have h1 := k.order
  have h2 := countP_set IntakeSlot.isFilled _ i _ (.reserved l) (freeIndex_free hi)
  simp only [IntakeSlot.isFilled, Bool.toNat_false] at h2
  exact h1.trans (Nat.le_of_eq h2.symm)

theorem askSlot_closed (hP : Closed P) (l : FieldLine) {s : State} (h : P s) : P (askSlot l s) := by
  unfold askSlot
  split
  · rename_i hi
    exact grantSlot_closed hP l hi h
  · exact modLine_closed hP (modIntake_closed hP (fun k => ⟨k.slots, k.order, joinWaitList_nodup k.waiting⟩) h)

theorem grantHead_closed (hP : Closed P) {s : State} (h : P s) : P (grantHead s) := by
  unfold grantHead
  split
  · rename_i l rest i hw hi
    refine grantSlot_closed hP _ hi (modIntake_closed hP (fun k => ⟨k.slots, k.order, ?_⟩) h)
    have := k.waiting
    rw [hw] at this
    exact (List.nodup_cons.mp this).2
  · exact h

theorem grantAll_closed (hP : Closed P) {s : State} (h : P s) : P (grantAll s) :=
  foldl_closed (fun _ _ h => grantHead_closed hP h) _ _ h

theorem startExchange_closed (hP : Closed P) (l : FieldLine) (v : Visit) {s : State} (h : P s) : P (startExchange l v s) :=
  askSlot_closed hP l (modLine_closed hP h)

theorem boundaryWith_closed (hP : Closed P) {g : State → State} (l : FieldLine) {s : State} (hg : ∀ s, P s → P (g s)) (h : P s) :
    P (boundaryWith g l s) := by
  unfold boundaryWith
  dsimp only
  split
  · rename_i n rest hl
    exact startExchange_closed hP _ _ (modLine_closed hP h (fun c => ⟨by have := c.list; rw [hl] at this; exact (Nat.le_succ _).trans this, c.interval, c.setting, c.driver, c.poll⟩))
  · split
    · split
      · exact hg _ h
      · exact modLine_closed hP h
    · split
      · exact startExchange_closed hP _ _ (modLine_closed hP h)
      · split
        · exact modLine_closed hP h (fun c => ⟨c.list, Nat.zero_le _, c.setting, c.driver, c.poll⟩)
        · have h1 : P (modLine l (fun c => { c with between := true }) s) := modLine_closed hP h
          split
          · exact hg _ h1
          · exact modLine_closed hP h1

theorem startSweep_closed (hP : Closed P) (l : FieldLine) {s : State} (h : P s) : P (startSweep l s) :=
  boundaryWith_closed hP l (fun _ h => modLine_closed hP h) (modLine_closed hP h (fun c => ⟨c.list, c.setting, c.setting, c.driver, c.poll⟩))

theorem visitBoundary_closed (hP : Closed P) (l : FieldLine) {s : State} (h : P s) : P (visitBoundary l s) :=
  boundaryWith_closed hP l (fun _ h => startSweep_closed hP l h) h

theorem endVisit_closed (hP : Closed P) (l : FieldLine) {s : State} (h : P s) : P (endVisit l s) :=
  visitBoundary_closed hP l (modLine_closed hP h (fun c => awaitGuard_sized c.list c.interval c.setting))

theorem becomeSilent_closed (hP : Closed P) (n : Nat) {s : State} (h : P s) : P (becomeSilent n s) := by
  have h1 : P (openStation n (modStation n (fun st => { st with state := .silent }) s)) := openStation_closed hP.toEntryClosed n (station_closed hP.toEntryClosed h)
  unfold becomeSilent
  dsimp only
  split
  · exact h1
  · split
    · exact clearGate_closed hP.toEntryClosed h1
    · exact h1

theorem visitFailed_closed (hP : Closed P) (l : FieldLine) (n : Nat) {s : State} (h : P s) : P (visitFailed l n s) := by
  have fails : StationChange (fun st => { st with failures := min 15 (st.failures + 1) }) := fun _ => ⟨fun _ => Nat.min_le_left _ _, id⟩
  unfold visitFailed
  split
  · exact h
  · dsimp only
    split
    · exact becomeSilent_closed hP n (hP.station fails h)
    · exact hP.station fails h

theorem visitSucceeded_closed (hP : Closed P) (n : Nat) {s : State} (h : P s) : P (visitSucceeded n s) := by
  have returns : StationChange (fun st => { st with failures := 0, state := .online }) := fun _ => ⟨fun _ => Nat.zero_le _, id⟩
  unfold visitSucceeded
  split
  · exact h
  · dsimp only
    split
    · exact restoreStation_closed hP.toEntryClosed n (hP.station returns h)
    · exact hP.station returns h

/-- R36: the driver is asserted until the last bit has gone out. -/
theorem driveBits_sized {poll : List Byte} {bits : Nat} {c : LineController} (h : c.list.length ≤ Config.maxInterrogation)
    (h2 : c.interval ≤ 600) (h3 : c.settings.interval ≤ 600) : LineSized (driveBits poll bits c) := by
  unfold driveBits
  split
  · rename_i hb
    exact ⟨h, h2, h3, ⟨fun _ => ⟨_, _, rfl⟩, fun _ => rfl⟩, fun p b hp => by cases hp; exact hb⟩
  · exact ⟨h, h2, h3, by simp, fun _ _ h => (nomatch h)⟩

/-- R38: bit times that pass with no attempt in progress leave a line controller within its bounds. -/
theorem guardBits_sized (poll : Option (List Byte)) (q : Nat) {c : LineController} (h : LineSized c) : LineSized (guardBits poll q c) := by
  unfold guardBits
  split
  · exact ⟨h.list, h.interval, h.setting, h.driver, h.poll⟩
  · split
    · exact driveBits_sized h.list h.interval h.setting
    · exact ⟨h.list, h.interval, h.setting, h.driver, h.poll⟩

theorem sendPoll_closed (hP : Closed P) (l : FieldLine) (q : Nat) {s : State} (h : P s) : P (sendPoll l q s) := by
  unfold sendPoll
  split
  · exact modLine_closed hP h (guardBits_sized _ q)
  · split
    · exact modLine_closed hP h (fun c => driveBits_sized c.list c.interval c.setting)
    · exact h
  · exact h

theorem returnSlot_closed (hP : Closed P) (l : FieldLine) {s : State} (h : P s) : P (returnSlot l s) := by
  refine modIntake_closed hP (fun k => ⟨by simpa using k.slots, ?_, k.waiting⟩) h
  have : (s.intake.slots.map (fun v => if v = .reserved l then .free else v)).countP IntakeSlot.isFilled =
      s.intake.slots.countP IntakeSlot.isFilled := by
    rw [List.countP_map]
    congr 1
    funext v
    simp only [Function.comp]
    split
    · rename_i hv; rw [hv]; rfl
    · rfl
  exact k.order.trans (Nat.le_of_eq this.symm)

theorem leaveWaitList_closed (hP : Closed P) (l : FieldLine) {s : State} (h : P s) : P (leaveWaitList l s) :=
  modIntake_closed hP (fun k => ⟨k.slots, k.order, k.waiting.filter _⟩) h

theorem failAttempt_closed (hP : Closed P) (l : FieldLine) (c : FailureCause) {s : State} (h : P s) : P (failAttempt l c s) := by
  unfold failAttempt
  split
  · exact h
  · rename_i v _
    dsimp only
    have h1 : P (modLine l (fun c => awaitGuard (breakQuiet c))
        (modStation v.station (fun st => { st with lastCause := some c }) s)) :=
      modLine_closed hP (station_closed hP.toEntryClosed h) (fun c => awaitGuard_sized c.list c.interval c.setting)
    split
    · exact modLine_closed hP h1
    · refine endVisit_closed hP l ?_
      split
      · exact returnSlot_closed hP l h1
      · exact visitFailed_closed hP l _ (returnSlot_closed hP l h1)

theorem fillSlot_closed (hP : Closed P) (l : FieldLine) (b : Block) {s : State} (h : P s) : P (fillSlot l b s) := by
  unfold fillSlot
  split
  · exact h
  · rename_i i hi
    refine modIntake_closed hP (fun k => ⟨by simpa using k.slots, ?_, k.waiting⟩) h
    have h1 := k.order
    have h2 := countP_set IntakeSlot.isFilled _ i _ (.filled b) (reservedIndex_reserved hi)
    simp only [IntakeSlot.isFilled, Bool.toNat_false, Bool.toNat_true, List.length_append, List.length_singleton] at h2 ⊢
    omega

theorem acceptBlock_closed (hP : Closed P) (l : FieldLine) (v : Visit) (sn : Bool) (es : List Entry) (t m : Bool) {s : State} (h : P s) :
    P (acceptBlock l v sn es t m s) := by
  unfold acceptBlock
  dsimp only
  split
  · exact startExchange_closed hP _ _ (modLine_closed hP (fillSlot_closed hP _ _ (station_closed hP.toEntryClosed h))
      (fun c => awaitGuard_sized c.list c.interval c.setting))
  · exact endVisit_closed hP l (fillSlot_closed hP _ _ (station_closed hP.toEntryClosed h))

theorem goodReply_closed (hP : Closed P) (l : FieldLine) (v : Visit) (st : Station) (j : Judged) {s : State} (h : P s) :
    P (goodReply l v st j s) := by
  have h2 : P (if v.decided then modLine l breakQuiet s
      else visitSucceeded v.station (modLine l breakQuiet s)) := by
    split
    · exact modLine_closed hP h
    · exact visitSucceeded_closed hP _ (modLine_closed hP h)
  unfold goodReply
  dsimp only
  split
  · split
    · exact endVisit_closed hP l (returnSlot_closed hP l h2)
    · exact acceptBlock_closed hP l v _ _ _ _ h2
  · exact acceptBlock_closed hP l v _ _ _ _ h2
  · exact endVisit_closed hP l (returnSlot_closed hP l h2)

theorem completeReply_closed (hP : Closed P) (l : FieldLine) {s : State} (h : P s) : P (completeReply l s) := by
  unfold completeReply
  split
  · split
    · split
      · exact h
      · rename_i st _
        have h1 : ∀ b : Bool, ∀ n, P (if b then modStation n (fun st => { st with lastContact := some (now s) }) s else s) := by
          intro b n; split
          · exact station_closed hP.toEntryClosed h
          · exact h
        dsimp only
        split
        · exact failAttempt_closed hP l _ (h1 _ _)
        · exact goodReply_closed hP l _ _ _ (h1 _ _)
    · exact h
  · exact h

theorem timeoutReply_closed (hP : Closed P) (l : FieldLine) {s : State} (h : P s) : P (timeoutReply l s) := by
  unfold timeoutReply
  split
  · exact failAttempt_closed hP l _ h
  · exact h

theorem gapReply_closed (hP : Closed P) (l : FieldLine) {s : State} (h : P s) : P (gapReply l s) := by
  unfold gapReply
  split
  · split
    · exact h
    · exact failAttempt_closed hP l _ h
  · exact h

theorem fieldCharacter_closed (hP : Closed P) (l : FieldLine) (b : Byte) {s : State} (h : P s) : P (fieldCharacter l b s) := by
  unfold fieldCharacter
  dsimp only
  split
  · rename_i chars hc
    split
    · exact modLine_closed hP h
    · refine modLine_closed hP h (fun c => ⟨c.list, c.interval, c.setting, ?_, fun _ _ h => (nomatch h)⟩)
      have he : (lineOf s l).exchange = .reply chars := by
        unfold replyChars at hc
        split at hc
        · rename_i h1; cases hc; exact h1
        · cases hc
      have := c.driver
      rw [he] at this
      simpa [breakQuiet] using this
  · exact modLine_closed hP h

theorem stopLine_closed (hP : Closed P) (l : FieldLine) {s : State} (h : P s) : P (stopLine l s) := by
  unfold stopLine
  split
  · exact h
  · exact modLine_closed hP (leaveWaitList_closed hP l (returnSlot_closed hP l h))
      (fun c => ⟨Nat.zero_le _, by simpa [awaitGuard] using c.interval, by simpa [awaitGuard] using c.setting, by simp [awaitGuard],
        fun _ _ h => (nomatch h)⟩)

/-! ## The tick -/

theorem modTick_closed (hP : Closed P) (f : TickDue → TickDue) {s : State} (h : P s) : P (modTick f s) := hP.tick h

theorem gateTick_closed (hP : Closed P) {s : State} (h : P s) : P (gateTick s) := by
  unfold gateTick
  split
  · exact hP.gate (fun g => ⟨(Nat.sub_le _ _).trans g.count, g.settleTime⟩) h
  · exact h

theorem takeGate_closed (hP : Closed P) {s : State} (h : P s) : P (takeGate s) := by
  unfold takeGate
  split
  · exact modTick_closed hP _ (gateTick_closed hP h)
  · exact h

theorem countRelease_closed (hP : Closed P) (s : State) (f : Nat) (h : P s) : P (countRelease s f) := by
  unfold countRelease
  split
  · exact modSlot_closed hP.toEntryClosed h
  · exact h

theorem takeRelease_closed (hP : Closed P) (f : Nat) {s : State} (h : P s) : P (takeRelease f s) := by
  unfold takeRelease
  split
  · dsimp only
    split
    · exact expireRelease_closed hP.toEntryClosed f (modTick_closed hP _ h)
    · exact modTick_closed hP _ h
  · exact h

theorem takeRotation_closed (hP : Closed P) {s : State} (h : P s) : P (takeRotation s) := by
  unfold takeRotation
  split
  · exact rotateStorms_closed hP.toEntryClosed (modTick_closed hP _ h)
  · exact h

theorem qualifyUpTo_closed (hP : Closed P) : ∀ (keys : List Nat) {s : State}, P s → P (qualifyUpTo keys s)
  | [], _, h => modTick_closed hP _ h
  | key :: keys, s, h => by
    unfold qualifyUpTo
    split
    · exact modTick_closed hP _ h
    · exact qualifyUpTo_closed hP keys (recordTickDefault_closed hP.toEntryClosed s key h)

theorem qualifyOn_closed (hP : Closed P) {s : State} (h : P s) : P (qualifyOn s) := by
  unfold qualifyOn
  split
  · exact h
  · exact qualifyUpTo_closed hP _ h

theorem takeQualifier_closed (hP : Closed P) {s : State} (h : P s) : P (takeQualifier s) :=
  modTick_closed hP _ (foldl_closed (recordTickDefault_closed hP.toEntryClosed) _ _ h)

theorem recordEvent_closed (hP : Closed P) (a : Nat) (c : Condition) (p : Ending → Bool) (order : Record → Bool) {s : State} (h : P s) :
    P (recordEvent a c p order s) := by
  unfold recordEvent
  dsimp only
  split
  · exact qualifyOn_closed hP (modTick_closed hP _ (recordTickBy_closed hP.toEntryClosed order _ (qualifyOn_closed hP h)))
  · exact h

theorem countInterval_closed (hP : Closed P) (l : FieldLine) {s : State} (h : P s) : P (countInterval l s) := by
  unfold countInterval
  split
  · exact h
  · exact modLine_closed hP h (fun c => ⟨c.list, (Nat.sub_le _ _).trans c.interval, c.setting, c.driver, c.poll⟩)

theorem takeLine_closed (hP : Closed P) (l : FieldLine) {s : State} (h : P s) : P (takeLine l s) := by
  unfold takeLine
  split
  · dsimp only
    split
    · exact startSweep_closed hP l (countInterval_closed hP l (modTick_closed hP _ h))
    · exact countInterval_closed hP l (modTick_closed hP _ h)
  · exact h

theorem takeLines_closed (hP : Closed P) (l : FieldLine) {s : State} (h : P s) : P (takeLines l s) := by
  unfold takeLines
  split
  · exact foldl_closed (fun _ m h => takeLine_closed hP m h) _ _ h
  · exact h

theorem saveTick_closed (hP : Closed P) {s : State} (h : P s) : P (saveTick s) := by
  unfold saveTick
  split
  · exact h
  · rename_i v hv
    split
    · unfold abandonSave raiseSaveFailed
      exact flags_closed hP.toEntryClosed _ (hP.saveEnd h)
    · exact hP.saveCount hv (Nat.sub_le _ _) h

theorem takeSave_closed (hP : Closed P) {s : State} (h : P s) : P (takeSave s) := by
  unfold takeSave
  split
  · exact saveTick_closed hP (modTick_closed hP _ h)
  · exact h

theorem takeGateAndIncidents_closed (hP : Closed P) {s : State} (h : P s) : P (takeGateAndIncidents s) :=
  takeGate_closed hP (takeRotation_closed hP (foldl_closed (fun _ f h => takeRelease_closed hP f h) _ _ h))

theorem completeTick_closed (hP : Closed P) {s : State} (h : P s) : P (completeTick s) := by
  unfold completeTick
  dsimp only
  refine modTick_closed hP _ (takeSave_closed hP (foldl_closed (fun _ l h => takeLine_closed hP l h) _ _ ?_))
  split
  · exact takeGateAndIncidents_closed hP (takeQualifier_closed hP h)
  · exact takeQualifier_closed hP (takeGateAndIncidents_closed hP h)

theorem settle_closed (hP : Closed P) {s : State} (h : P s) : P (settle s) := by
  unfold settle
  split
  · exact h
  · refine takeBlock_closed hP (grantAll_closed hP ?_)
    split
    · exact h
    · exact completeTick_closed hP h

theorem clearIfDone_closed (hP : Closed P) {s : State} (h : P s) : P (clearIfDone s) := by
  unfold clearIfDone
  split
  · exact modTick_closed hP _ h
  · exact h

theorem countBlocks_closed (hP : Closed P) {s : State} (h : P s) : P (countBlocks s) := by
  have h1 : P (if s.tick.gate then s else gateTick s) := by
    split
    · exact h
    · exact gateTick_closed hP h
  have h2 := foldl_closed (f := countLine) (fun s l (h : P s) => by
    unfold countLine
    split
    · exact h
    · exact countInterval_closed hP l h) fieldLines _ (foldl_closed (countRelease_closed hP) feederNumbers _ h1)
  unfold countBlocks
  dsimp only
  generalize List.foldl countLine _ fieldLines = u at h2 ⊢
  split
  · exact h2
  · exact saveTick_closed hP h2

/-! ### The passing of time -/

theorem enterMonitor_closed (hP : Closed P) (m : MonitorState) {s : State} (h : P s) : P (enterMonitor m s) :=
  hP.timebase (fun t => ⟨t.second, Nat.zero_le _, Nat.zero_le _, t.offset⟩) h

theorem failCrystal_closed (hP : Closed P) {s : State} (h : P s) : P (failCrystal s) := by
  unfold failCrystal raiseClockFail
  exact hP.flags (enterMonitor_closed hP _ h)

theorem takeExit_closed (hP : Closed P) {s : State} (h : P s) : P (takeExit s) := by
  unfold takeExit
  split
  · split
    · exact enterMonitor_closed hP _ h
    · split
      · exact failCrystal_closed hP h
      · exact h
  · exact h

theorem addPhase_closed (hP : Closed P) (d : Nat) {s : State} (h : P s) : P (addPhase d s) :=
  hP.timebase (fun t => ⟨t.second, t.goodCycles, t.elapsed, t.offset⟩) h

theorem passTime_closed (hP : Closed P) (d : Nat) {s : State} (h : P s) : P (passTime d s) := by
  have h1 := takeExit_closed hP h
  unfold passTime
  dsimp only
  split
  · split
    · exact addPhase_closed hP d (failCrystal_closed hP h1)
    · rename_i hd
      exact hP.timebase (fun t => ⟨t.second, t.goodCycles, Nat.le_of_not_lt hd, t.offset⟩) h1
  · exact addPhase_closed hP d h1

/-- R21: once the exits that are due are taken, QUALIFYING has a count below 2048. -/
theorem takeExit_goodCycles {s : State} (h : (takeExit s).timebase.monitor = .qualifying) :
    (takeExit s).timebase.goodCycles < Config.qualifyingCycles := by
  unfold takeExit at h ⊢
  split at h
  · split at h
    · cases h
    · split at h
      · cases h
      · rename_i h1 h2 h3
        simp only [if_pos h1, if_neg h2, if_neg h3]
        exact Nat.lt_of_not_le h2
  · rename_i h1
    exact absurd h h1

/-- R21: the passing of time keeps the count below 2048. -/
theorem passTime_goodCycles (d : Nat) {s : State} (h : (takeExit s).timebase.monitor = .qualifying) :
    (passTime d (takeExit s)).timebase.goodCycles < Config.qualifyingCycles := by
  have hc := takeExit_goodCycles h
  have hs : takeExit (takeExit s) = takeExit s ∨ takeExit (takeExit s) = failCrystal (takeExit s) := by
    generalize takeExit s = t at h hc
    unfold takeExit
    rw [if_pos h, if_neg (Nat.not_le_of_lt hc)]
    split
    · exact .inr rfl
    · exact .inl rfl
  unfold passTime
  dsimp only
  rcases hs with hs | hs <;> rw [hs]
  · rw [if_pos h]
    split
    · exact Nat.zero_lt_succ _
    · exact hc
  · rw [if_neg (by simp [failCrystal, raiseClockFail, modFlags, enterMonitor, modTimebase])]
    exact Nat.zero_lt_succ _

theorem completeSecond_closed (hP : Closed P) {s : State} (h : P s) : P (completeSecond s) :=
  hP.timebase (fun t => ⟨t.second, t.goodCycles, t.elapsed, t.offset⟩) (passTime_closed hP _ h)

theorem passIdle_closed (hP : Closed P) {s : State} (h : P s) : P (passIdle s) := passTime_closed hP _ h

theorem quietLines_closed (hP : Closed P) {s : State} (h : P s) : P (quietLines s) :=
  foldl_closed (fun _ _ h => modLine_closed hP h) fieldLines _ h

theorem offerTick_closed (hP : Closed P) (q : Bool) {s : State} (h : P s) : P (offerTick q s) := by
  have h0 := quietLines_closed hP (completeSecond_closed hP h)
  unfold offerTick
  dsimp only
  by_cases hm : Config.maxRunSecond ≤ now (quietLines (completeSecond s))
  · simpa only [if_pos hm] using h0
  · generalize quietLines (completeSecond s) = v at h0 hm
    have hs : v.timebase.runSecond + 1 ≤ Config.maxRunSecond := Nat.gt_of_not_le hm
    have h1 : P (modTimebase (fun t => { t with runSecond := t.runSecond + 1 }) v) :=
      hP.timebase (fun t => ⟨hs, t.goodCycles, t.elapsed, t.offset⟩) h0
    simp only [if_neg hm]
    generalize modTimebase (fun t => { t with runSecond := t.runSecond + 1 }) v = u at h1 ⊢
    have h2 : P (countBlocks (modTick (fun _ => dueOf q u) u)) := countBlocks_closed hP (modTick_closed hP _ h1)
    refine clearIfDone_closed hP ?_
    split
    · exact h2
    · exact qualifyOn_closed hP h2

end Sys2Proof.Machine
end

