-- ==== Sys2Proof/Laws/ClosedCommands.lean ====
section
/-! SUPPORT. A property closed under the primitive changes is kept by every request's owner and by every command. -/

namespace Sys2Proof.Machine

variable {P : State → Prop}

theorem answer_closed {checks : List (Bool × Result)} {s : State} {e : State × Served} (h : P s) (he : P e.1) :
    P (answer checks s e).1 := by
  unfold answer
  split
  · exact h
  · exact he

/-! ## Asset Directory -/

theorem putStation_closed (hP : Closed P) {n : Nat} {st : Station} {s : State} (hk : StationKept s n st) (h : P s) : P (putStation n st s) :=
  hP.stationInsert hk h

/-- R11: a redefinition keeps the point map, and keeps the failure count or sets it to 0. -/
theorem redefined_kept {s : State} {n : Nat} {st : Station} (h : stationOf s n = some st) (v : StationSettings) :
    StationKept s n (redefined st v) := by
  unfold redefined
  split
  · exact ⟨.inr ⟨st, h, rfl⟩, .inr ⟨st, h, rfl⟩⟩
  · exact ⟨.inl rfl, .inr ⟨st, h, rfl⟩⟩

/-- R2: filling an asset's points keeps a point map in its canonical form. -/
theorem fillPoints_wf (a : Nat) (p : RolePoints) {m : Table (Nat × Role)} (h : Table.wf m = true) : Table.wf (fillPoints a p m) = true := by
  unfold fillPoints
  generalize rolePoints p = l
  induction l generalizing m with
  | nil => exact h
  | cons e l ih => exact ih (Table.wf_insert h _ _)

theorem applyStation_closed (hP : Closed P) (n : Nat) (v : StationSettings) {s : State} (h : P s) : P (applyStation n v s) := by
  unfold applyStation
  split
  · exact putStation_closed hP ⟨.inl rfl, .inl rfl⟩ h
  · rename_i st hst
    have h1 := putStation_closed hP (redefined_kept hst v) h
    have h2 : P (if st.state = .silent ∧ (redefined st v).state ≠ .silent then restoreStation n (putStation n (redefined st v) s)
        else putStation n (redefined st v) s) := by
      split
      · exact restoreStation_closed hP.toEntryClosed n h1
      · exact h1
    dsimp only
    split
    · exact hP.queue h2
    · exact h2

theorem ownDefineStation_closed (hP : Closed P) (b : List Byte) {s : State} (h : P s) : P (ownDefineStation b s).1 := by
  unfold ownDefineStation
  split
  · exact h
  · exact answer_closed h (applyStation_closed hP _ _ h)

theorem ownRemoveStation_closed (hP : Closed P) (b : List Byte) {s : State} (h : P s) : P (ownRemoveStation b s).1 := by
  unfold ownRemoveStation
  dsimp only
  split
  · exact h
  · split
    · exact h
    · refine answer_closed h ?_
      unfold dropStation
      exact hP.queue (freeSlot_closed hP.toEntryClosed _ (hP.stationErase h))

theorem eraseAsset_closed (hP : Closed P) (a : Nat) (v : AssetSettings) {s : State} (h : P s) : P (eraseAsset a v s) := by
  unfold eraseAsset
  exact hP.station (fun _ => ⟨id, fun h => Table.wf_filter h _⟩) (hP.assetErase h)

theorem freeSupplied_closed (hP : Closed P) (f : Nat) {s : State} (h : P s) : P (freeSupplied f s) := by
  unfold freeSupplied
  split
  · exact h
  · exact freeSlot_closed hP.toEntryClosed _ (releaseAll_closed hP.toEntryClosed _ h)

theorem dropAsset_closed (hP : Closed P) (a : Nat) (v : AssetSettings) {s : State} (h : P s) : P (dropAsset a v s) := by
  unfold dropAsset
  exact hP.queue (eraseAsset_closed hP a v (freeSupplied_closed hP _ (foldl_closed (fun _ key h => takeRecord_closed hP.toEntryClosed key h) _ _ h)))

theorem writeAsset_closed (hP : Closed P) (a : Nat) (v : AssetSettings) {s : State} (h : P s) : P (writeAsset a v s) := by
  unfold writeAsset
  exact hP.station (fun _ => ⟨id, fillPoints_wf _ _⟩) (hP.assetInsert h)

theorem ownDefineAsset_closed (hP : Closed P) (b : List Byte) {s : State} (h : P s) : P (ownDefineAsset b s).1 := by
  unfold ownDefineAsset
  split
  · exact h
  · split
    · exact h
    · refine answer_closed h ?_
      unfold applyAsset
      dsimp only
      split
      · exact writeAsset_closed hP _ _ h
      · exact writeAsset_closed hP _ _ (dropAsset_closed hP _ _ h)

theorem ownRemoveAsset_closed (hP : Closed P) (b : List Byte) {s : State} (h : P s) : P (ownRemoveAsset b s).1 := by
  unfold ownRemoveAsset
  dsimp only
  split
  · exact h
  · split
    · exact h
    · exact answer_closed h (dropAsset_closed hP _ _ h)

theorem ownSetProfile_closed (hP : Closed P) (b : List Byte) {s : State} (h : P s) : P (ownSetProfile b s).1 := by
  unfold ownSetProfile
  split
  · exact h
  · unfold applyProfile
    dsimp only
    split
    · exact takeUpProfile_closed hP.toEntryClosed _ (hP.profiles h)
    · exact hP.profiles h

theorem ownSetArea_closed (hP : Closed P) (b : List Byte) {s : State} (h : P s) : P (ownSetArea b s).1 := by
  unfold ownSetArea
  split
  · exact h
  · exact hP.queue (hP.area h)

theorem ownReadStation_closed (hP : Closed P) (b : List Byte) {s : State} (h : P s) : P (ownReadStation b s).1 := by
  unfold ownReadStation
  dsimp only
  split
  · exact h
  · split
    · exact h
    · exact station_closed hP.toEntryClosed h

theorem ownReadAsset_state (b : List Byte) (s : State) : (ownReadAsset b s).1 = s := by
  unfold ownReadAsset
  dsimp only
  split
  · rfl
  · split <;> rfl

theorem ownReadProfile_state (b : List Byte) (s : State) : (ownReadProfile b s).1 = s := by
  unfold ownReadProfile
  split <;> rfl

theorem ownRelearn_closed (hP : Closed P) (b : List Byte) {s : State} (h : P s) : P (ownRelearn b s).1 := by
  unfold ownRelearn
  dsimp only
  split
  · exact h
  · split
    · exact h
    · exact answer_closed h (hP.asset h)

/-! ## Timebase and Daylight Gate -/

theorem ownSetTime_closed (hP : Closed P) (b : List Byte) {s : State} (h : P s) : P (ownSetTime b s).1 :=
  hP.timebase (fun t => ⟨t.second, t.goodCycles, t.elapsed, Nat.mod_lt _ (by decide)⟩) h

theorem ownClockRetry_closed (hP : Closed P) (b : List Byte) {s : State} (h : P s) : P (ownClockRetry b s).1 :=
  answer_closed h (enterMonitor_closed hP _ h)

/-- R31: the settle time of a SET-DAYLIGHT-SOURCE that is taken. -/
theorem parseSource_settle {b : List Byte} {v : GateSource} {n : Nat} (h : parseSource b = some (v, n)) : n ≤ 3600 := by
  unfold parseSource at h
  split at h
  · cases h
  · rename_i hr
    have : u16 b 3 ≤ 3600 := by simpa [inRange] using hr
    split at h
    · split at h <;> cases h; exact this
    · split at h
      · split at h <;> cases h; exact this
      · cases h

theorem ownSetDaylightSource_closed (hP : Closed P) (b : List Byte) {s : State} (h : P s) : P (ownSetDaylightSource b s).1 := by
  unfold ownSetDaylightSource
  split
  · exact h
  · rename_i v n hp
    refine answer_closed h ?_
    have h1 : P { s with gate := { s.gate with source := v, settleTime := n } } := hP.gate (fun g => ⟨g.count, parseSource_settle hp⟩) h
    unfold applySource
    dsimp only
    split
    · exact h1
    · exact clearGate_closed hP.toEntryClosed h1

theorem ownSetDaylight_closed (hP : Closed P) (b : List Byte) {s : State} (h : P s) : P (ownSetDaylight b s).1 := by
  unfold ownSetDaylight
  split
  · exact answer_closed h (setGate_closed hP.toEntryClosed _ h)
  · exact answer_closed h (setGate_closed hP.toEntryClosed _ h)
  · exact h

/-! ## Field lines -/

/-- R34: the interval of a SET-LINE that is taken. -/
theorem parseLine_interval {b : List Byte} {l : FieldLine} {v : LineSettings} (h : parseLine b = some (l, v)) : v.interval ≤ 600 := by
  unfold parseLine at h
  split at h
  · split at h
    · rename_i hr
      cases h
      simp only [inRange, Bool.and_eq_true, decide_eq_true_eq] at hr
      exact hr.2.2
    · cases h
  · cases h

theorem ownSetLine_closed (hP : Closed P) (b : List Byte) {s : State} (h : P s) : P (ownSetLine b s).1 := by
  unfold ownSetLine
  split
  · exact h
  · rename_i l v hv
    have h1 : P (modLine l (fun c => { c with settings := v }) s) := modLine_closed hP h (fun c => ⟨c.list, c.interval, parseLine_interval hv, c.driver, c.poll⟩)
    exact answer_closed h h1

theorem ownStartLine_closed (hP : Closed P) (b : List Byte) {s : State} (h : P s) : P (ownStartLine b s).1 := by
  unfold ownStartLine
  split
  · exact h
  · exact answer_closed h (startSweep_closed hP _ h)

theorem ownStopLine_closed (hP : Closed P) (b : List Byte) {s : State} (h : P s) : P (ownStopLine b s).1 := by
  unfold ownStopLine
  split
  · exact h
  · exact stopLine_closed hP _ h

theorem ownSetSweepMode_closed (hP : Closed P) (b : List Byte) {s : State} (h : P s) : P (ownSetSweepMode b s).1 := by
  unfold ownSetSweepMode
  split
  · rename_i l m _ _
    exact modLine_closed (f := fun c => { c with settings := { c.settings with mode := m } }) (l := l) hP h
  · exact h

theorem ownInterrogate_closed (hP : Closed P) (b : List Byte) {s : State} (h : P s) : P (ownInterrogate b s).1 := by
  unfold ownInterrogate
  dsimp only
  split
  · exact h
  · split
    · exact h
    · split
      · exact h
      · split
        · exact h
        · split
          · exact h
          · rename_i st _ _ _ hlt
            have h1 : P (modLine st.settings.line (fun c => { c with list := c.list ++ [u8 b 0] }) s) :=
              modLine_closed hP h (fun c => ⟨by simp only [List.length_append, List.length_cons, List.length_nil]; omega, c.interval, c.setting,
                c.driver, c.poll⟩)
            unfold addInterrogation
            dsimp only
            split
            · exact visitBoundary_closed hP _ h1
            · exact h1

/-! ## Fault table, Incident Table, queue -/

theorem ownReadRecord_state (b : List Byte) (s : State) : (ownReadRecord b s).1 = s := by
  unfold ownReadRecord
  split
  · rfl
  · split <;> rfl

theorem ownListRecords_state (b : List Byte) (s : State) : (ownListRecords b s).1 = s := by
  unfold ownListRecords
  split
  · rfl
  · split <;> rfl

theorem ownReadIncident_state (b : List Byte) (s : State) : (ownReadIncident b s).1 = s := by
  unfold ownReadIncident
  dsimp only
  split <;> rfl

theorem ownListIncidents_state (b : List Byte) (s : State) : (ownListIncidents b s).1 = s := by
  unfold ownListIncidents
  split <;> rfl

theorem ownBreakOut_closed (hP : Closed P) (b : List Byte) {s : State} (h : P s) : P (ownBreakOut b s).1 := by
  unfold ownBreakOut
  dsimp only
  split
  · exact h
  · exact answer_closed h (breakSlot_closed hP.toEntryClosed _ h)

theorem ownPeek_state (b : List Byte) (s : State) : (ownPeek b s).1 = s := rfl

theorem ownListQueue_state (b : List Byte) (s : State) : (ownListQueue b s).1 = s := by
  unfold ownListQueue
  split <;> rfl

theorem acknowledge_closed (hP : Closed P) (t : Thing) (r : Reason) {s : State} (h : P s) : P (acknowledge t r s) := by
  unfold acknowledge
  split
  · exact hP.queue (hP.record (recordChange_of fun _ => ⟨rfl, rfl, rfl, rfl, rfl, rfl⟩) h)
  · exact removeRecord_closed hP.toEntryClosed _ h
  · exact hP.queue (markSlotSeen_closed hP.toEntryClosed _ h)
  · exact hP.queue (freeSlot_closed hP.toEntryClosed _ h)

theorem ownAcknowledge_closed (hP : Closed P) (b : List Byte) {s : State} (h : P s) : P (ownAcknowledge b s).1 := by
  unfold ownAcknowledge
  split
  · exact answer_closed h (acknowledge_closed hP _ _ h)
  · exact h

theorem ownSetAlert_closed (hP : Closed P) (b : List Byte) {s : State} (h : P s) : P (ownSetAlert b s).1 := by
  unfold ownSetAlert
  split
  · exact h
  · exact hP.alert h

theorem ownSetNotices_closed (hP : Closed P) (b : List Byte) {s : State} (h : P s) : P (ownSetNotices b s).1 := by
  unfold ownSetNotices
  split
  · exact h
  · exact hP.notices h

/-! ## Link and store -/

theorem ownReadStatus_closed (hP : Closed P) (b : List Byte) {s : State} (h : P s) : P (ownReadStatus b s).1 :=
  flags_closed hP.toEntryClosed (fun _ => {}) h

theorem modLink_closed (hP : Closed P) {f : Link → Link} {s : State}
    (hf : (f s.link).requests.length ≤ s.link.requests.length) (h : P s) : P (modLink f s) := hP.link (.inr hf) h

theorem ownSetConsoleRate_closed (hP : Closed P) (b : List Byte) {s : State} (h : P s) : P (ownSetConsoleRate b s).1 := by
  unfold ownSetConsoleRate
  split
  · exact h
  · split
    · exact h
    · rename_i r _ _
      exact modLink_closed hP (f := fun k => { k with rate := r }) le_rfl h

theorem ownSaveSettings_closed (hP : Closed P) (b : List Byte) {s : State} (h : P s) : P (ownSaveSettings b s).1 := hP.saveStart h

/-! ## The Console Link -/

theorem dropFrame_closed (hP : Closed P) {s : State} (h : P s) : P (dropFrame s) := by
  unfold dropFrame raiseLinkFault huntAgain
  exact flags_closed hP.toEntryClosed _ (modLink_closed hP le_rfl h)

theorem offerFrame_closed (hP : Closed P) (f : Frame) {s : State} (h : P s) : P (offerFrame f s) := by
  unfold offerFrame
  split
  · rename_i hlt
    exact hP.link (.inl (by simpa using hlt)) h
  · exact flags_closed hP.toEntryClosed _ h

theorem checkFrame_closed (hP : Closed P) {s : State} (h : P s) : P (checkFrame s) := by
  unfold checkFrame
  split
  · exact h
  · split
    · split
      · exact offerFrame_closed hP _ (modLink_closed hP le_rfl h)
      · exact dropFrame_closed hP h
    · exact h

theorem huntCharacter_closed (hP : Closed P) (b : Byte) {s : State} (h : P s) : P (huntCharacter b s) := by
  unfold huntCharacter
  split
  · exact modLink_closed hP le_rfl h
  · exact h

theorem consoleCharacter_closed (hP : Closed P) (b : Byte) {s : State} (h : P s) : P (consoleCharacter b s) := by
  unfold consoleCharacter
  split
  · exact huntCharacter_closed hP b h
  · split
    · exact huntCharacter_closed hP b (checkFrame_closed hP h)
    · split
      · exact dropFrame_closed hP h
      · exact modLink_closed hP le_rfl h

theorem consoleGap_closed (hP : Closed P) {s : State} (h : P s) : P (consoleGap s) := by
  unfold consoleGap
  split
  · exact h
  · split
    · exact h
    · exact dropFrame_closed hP h

theorem reply_closed (hP : Closed P) (f : Frame) {o : State × Served} (h : P o.1) : P (reply f o) := by
  unfold reply sendReply
  exact modLink_closed hP le_rfl h

theorem serve_closed (hP : Closed P) (code : Nat) {own : List Byte → State → State × Served} {s : State}
    (ho : ∀ b s, P s → P (own b s).1) (h : P s) : P (serve code own s) := by
  have hs := settle_closed hP h
  unfold serve
  dsimp only
  split
  · split
    · split
      · exact reply_closed hP _ hs
      · exact reply_closed hP _ (ho _ _ hs)
    · exact hs
  · exact hs

theorem serveUnknown_closed (hP : Closed P) {s : State} (h : P s) : P (serveUnknown s) := by
  have hs := settle_closed hP h
  unfold serveUnknown
  dsimp only
  split
  · split
    · exact reply_closed hP _ hs
    · exact hs
  · exact hs

theorem sendNotice_closed (hP : Closed P) {s : State} (h : P s) : P (sendNotice s) := by
  unfold sendNotice
  split
  · exact h
  · split
    · exact modLink_closed hP le_rfl (hP.noticeTaken h)
    · exact h

theorem finishSending_closed (hP : Closed P) {s : State} (h : P s) : P (finishSending s) := by
  unfold finishSending
  split
  · exact h
  · exact modLink_closed hP le_rfl h
  · exact modLink_closed hP (by simp) h

theorem switchRate_closed (hP : Closed P) {s : State} (h : P s) : P (switchRate s) := by
  unfold switchRate
  split
  · have h1 : P (modLink (fun k => { k with lineRate := k.rate, after := .nothing }) s) := modLink_closed hP le_rfl h
    dsimp only
    split
    · exact h1
    · split
      · exact h1
      · exact dropFrame_closed hP h1
  · exact h

/-! ## Clock monitor -/

theorem measureCycle_closed (hP : Closed P) (n : Nat) {s : State} (h : P s) : P (measureCycle n s) := by
  have h1 := takeExit_closed hP h
  unfold measureCycle
  dsimp only
  split
  · split
    · exact passTime_closed hP n h1
    · rename_i hq _
      refine hP.timebase (fun t => ⟨t.second, ?_, t.elapsed, t.offset⟩) (passTime_closed hP n h1)
      show (countCycle n _).goodCycles ≤ _
      have hc := passTime_goodCycles n hq
      simp only [countCycle]
      split <;> omega
  · exact addPhase_closed hP _ h1
  · exact h1

theorem completeQualification_closed (hP : Closed P) {s : State} (h : P s) : P (completeQualification s) := by
  unfold completeQualification
  split
  · exact enterMonitor_closed hP _ h
  · exact h

theorem timeOutQualification_closed (hP : Closed P) {s : State} (h : P s) : P (timeOutQualification s) := by
  unfold timeOutQualification
  split
  · exact failCrystal_closed hP (addPhase_closed hP _ h)
  · exact h

theorem loseEdges_closed (hP : Closed P) {s : State} (h : P s) : P (loseEdges s) := by
  unfold loseEdges
  split
  · exact failCrystal_closed hP h
  · exact h

/-! ## Resets -/

theorem autoStart_closed (hP : Closed P) {s : State} (h : P s) : P (autoStart s) := by
  refine foldl_closed (f := autoStartLine) (fun s l h => ?_) _ _ h
  unfold autoStartLine
  split
  · exact startSweep_closed hP l h
  · exact h

theorem startUp_closed (hP : Closed P) {s : State} (h : P s) : P (startUp s) := autoStart_closed hP (hP.powerOn h)

theorem restartNow_closed (hP : Closed P) {s : State} (h : P s) : P (restartNow s) := by
  unfold restartNow
  split
  · exact autoStart_closed hP (hP.restart h)
  · exact h

theorem factoryNow_closed (hP : Closed P) {s : State} (h : P s) : P (factoryNow s) := by
  unfold factoryNow
  split
  · exact autoStart_closed hP (hP.factory h)
  · exact h

/-! ## Every command -/

/-- What the primitive changes keep, every command keeps. -/
theorem exec_closed (hP : Closed P) (c : Instr) {s t : State} (h : P s) (he : exec c s = .next t) : P t := by
  cases c
  case powerOn => cases he; exact startUp_closed hP h
  case resetPin => cases he; exact startUp_closed hP h
  case secondsTick => cases he; exact offerTick_closed hP _ (settle_closed hP h)
  case confirmTermReached => cases he; exact clearIfDone_closed hP (recordEvent_closed hP _ _ _ _ h)
  case countWindowExpiry => cases he; exact clearIfDone_closed hP (recordEvent_closed hP _ _ _ _ h)
  case clearTimeReached => cases he; exact clearIfDone_closed hP (recordEvent_closed hP _ _ _ _ h)
  case escalation => cases he; exact clearIfDone_closed hP (recordEvent_closed hP _ _ _ _ h)
  case releaseTimerExpiry => cases he; exact clearIfDone_closed hP (takeRelease_closed hP _ h)
  case stormWindowRotation => cases he; exact clearIfDone_closed hP (takeRotation_closed hP h)
  case settlingEnd => cases he; exact clearIfDone_closed hP (takeGate_closed hP h)
  case sweepIntervalExpiry => cases he; exact clearIfDone_closed hP (takeLines_closed hP _ h)
  case saveTimeout => cases he; exact clearIfDone_closed hP (takeSave_closed hP h)
  case saveCompletion => cases he; exact hP.saveDone (settle_closed hP h)
  case qualificationComplete => cases he; exact completeQualification_closed hP (settle_closed hP h)
  case qualificationTimeout => cases he; exact timeOutQualification_closed hP (settle_closed hP h)
  case crystalEdgeLoss => cases he; exact loseEdges_closed hP (settle_closed hP h)
  case flashPhase => cases he; exact hP.flash (settle_closed hP h)
  case pollSend => cases he; exact sendPoll_closed hP _ _ (settle_closed hP h)
  case replyTimeout => cases he; exact timeoutReply_closed hP _ (settle_closed hP h)
  case incompleteReplyGap => cases he; exact gapReply_closed hP _ (settle_closed hP h)
  case replyComplete => cases he; exact completeReply_closed hP _ (settle_closed hP h)
  case slotGrant => cases he; exact grantHead_closed hP h
  case decoderTakeBlock => cases he; exact settle_closed hP h
  case applyEntry => cases he; exact decodeStep_closed hP (settle_closed hP h)
  case consoleFrameComplete => cases he; exact checkFrame_closed hP (settle_closed hP h)
  case consoleGapExpiry => cases he; exact consoleGap_closed hP (settle_closed hP h)
  case unknownKindRequest => cases he; exact serveUnknown_closed hP h
  case headNoticeSend => cases he; exact sendNotice_closed hP (settle_closed hP h)
  case transmitComplete => cases he; exact finishSending_closed hP (settle_closed hP h)
  case consoleRateSwitch => cases he; exact switchRate_closed hP (settle_closed hP h)
  case restartReset => cases he; exact restartNow_closed hP (settle_closed hP h)
  case factoryDefaultsReset => cases he; exact factoryNow_closed hP (settle_closed hP h)
  case defineStation => cases he; exact serve_closed hP _ (fun b _ h => ownDefineStation_closed hP b h) h
  case removeStation => cases he; exact serve_closed hP _ (fun b _ h => ownRemoveStation_closed hP b h) h
  case defineAsset => cases he; exact serve_closed hP _ (fun b _ h => ownDefineAsset_closed hP b h) h
  case removeAsset => cases he; exact serve_closed hP _ (fun b _ h => ownRemoveAsset_closed hP b h) h
  case setProfile => cases he; exact serve_closed hP _ (fun b _ h => ownSetProfile_closed hP b h) h
  case setArea => cases he; exact serve_closed hP _ (fun b _ h => ownSetArea_closed hP b h) h
  case readStation => cases he; exact serve_closed hP _ (fun b _ h => ownReadStation_closed hP b h) h
  case readAsset => cases he; exact serve_closed hP _ (fun b s h => (ownReadAsset_state b s).symm ▸ h) h
  case readProfile => cases he; exact serve_closed hP _ (fun b s h => (ownReadProfile_state b s).symm ▸ h) h
  case setTime => cases he; exact serve_closed hP _ (fun b _ h => ownSetTime_closed hP b h) h
  case clockRetry => cases he; exact serve_closed hP _ (fun b _ h => ownClockRetry_closed hP b h) h
  case setDaylightSource => cases he; exact serve_closed hP _ (fun b _ h => ownSetDaylightSource_closed hP b h) h
  case setDaylight => cases he; exact serve_closed hP _ (fun b _ h => ownSetDaylight_closed hP b h) h
  case setLine => cases he; exact serve_closed hP _ (fun b _ h => ownSetLine_closed hP b h) h
  case startLine => cases he; exact serve_closed hP _ (fun b _ h => ownStartLine_closed hP b h) h
  case stopLine => cases he; exact serve_closed hP _ (fun b _ h => ownStopLine_closed hP b h) h
  case setSweepMode => cases he; exact serve_closed hP _ (fun b _ h => ownSetSweepMode_closed hP b h) h
  case interrogate => cases he; exact serve_closed hP _ (fun b _ h => ownInterrogate_closed hP b h) h
  case relearn => cases he; exact serve_closed hP _ (fun b _ h => ownRelearn_closed hP b h) h
  case readRecord => cases he; exact serve_closed hP _ (fun b s h => (ownReadRecord_state b s).symm ▸ h) h
  case listRecords => cases he; exact serve_closed hP _ (fun b s h => (ownListRecords_state b s).symm ▸ h) h
  case readIncident => cases he; exact serve_closed hP _ (fun b s h => (ownReadIncident_state b s).symm ▸ h) h
  case listIncidents => cases he; exact serve_closed hP _ (fun b s h => (ownListIncidents_state b s).symm ▸ h) h
  case breakOut => cases he; exact serve_closed hP _ (fun b _ h => ownBreakOut_closed hP b h) h
  case peek => cases he; exact serve_closed hP _ (fun b s h => (ownPeek_state b s).symm ▸ h) h
  case listQueue => cases he; exact serve_closed hP _ (fun b s h => (ownListQueue_state b s).symm ▸ h) h
  case acknowledge => cases he; exact serve_closed hP _ (fun b _ h => ownAcknowledge_closed hP b h) h
  case setAlert => cases he; exact serve_closed hP _ (fun b _ h => ownSetAlert_closed hP b h) h
  case setNotices => cases he; exact serve_closed hP _ (fun b _ h => ownSetNotices_closed hP b h) h
  case readStatus => cases he; exact serve_closed hP _ (fun b _ h => ownReadStatus_closed hP b h) h
  case setConsoleRate => cases he; exact serve_closed hP _ (fun b _ h => ownSetConsoleRate_closed hP b h) h
  case saveSettings => cases he; exact serve_closed hP _ (fun b _ h => ownSaveSettings_closed hP b h) h
  case restart => cases he; exact serve_closed hP _ (fun _ _ h => h) h
  case factoryDefaults => cases he; exact serve_closed hP _ (fun _ _ h => h) h
  case consoleCharacterReceived => cases he; exact consoleCharacter_closed hP _ (settle_closed hP h)
  case fieldCharacterReceived => cases he; exact fieldCharacter_closed hP _ _ (settle_closed hP h)
  case crystalCycleMeasured => cases he; exact measureCycle_closed hP _ (settle_closed hP h)

end Sys2Proof.Machine
end

