-- ==== Sys2Proof/Laws/PerInstr.lean ====
section
/-! SUPPORT. Statements for all commands, one lemma per constructor of Instr.
The rows of spec/opcode_table.json carry no bits, so no word spells a command (log entry 21). -/

namespace Sys2Proof.Laws

/-- No word of any width spells this command: its row gives no bits. -/
def NotSpelled.Statement (i : Instr) : Prop := ∀ nbits w : Nat, decodeTableWord nbits w ≠ some i

theorem NotSpelled.powerOn : NotSpelled.Statement .powerOn := fun _ _ h => by cases h
theorem NotSpelled.resetPin : NotSpelled.Statement .resetPin := fun _ _ h => by cases h
theorem NotSpelled.secondsTick (qualifierFirst : Bool) : NotSpelled.Statement (.secondsTick qualifierFirst) := fun _ _ h => by cases h
theorem NotSpelled.confirmTermReached (asset : Nat) (cond : Condition) : NotSpelled.Statement (.confirmTermReached asset cond) := fun _ _ h => by cases h
theorem NotSpelled.countWindowExpiry (asset : Nat) (cond : Condition) : NotSpelled.Statement (.countWindowExpiry asset cond) := fun _ _ h => by cases h
theorem NotSpelled.clearTimeReached (asset : Nat) (cond : Condition) : NotSpelled.Statement (.clearTimeReached asset cond) := fun _ _ h => by cases h
theorem NotSpelled.escalation (asset : Nat) (cond : Condition) : NotSpelled.Statement (.escalation asset cond) := fun _ _ h => by cases h
theorem NotSpelled.releaseTimerExpiry (feeder : Nat) : NotSpelled.Statement (.releaseTimerExpiry feeder) := fun _ _ h => by cases h
theorem NotSpelled.stormWindowRotation : NotSpelled.Statement .stormWindowRotation := fun _ _ h => by cases h
theorem NotSpelled.settlingEnd : NotSpelled.Statement .settlingEnd := fun _ _ h => by cases h
theorem NotSpelled.sweepIntervalExpiry (line : FieldLine) : NotSpelled.Statement (.sweepIntervalExpiry line) := fun _ _ h => by cases h
theorem NotSpelled.saveTimeout : NotSpelled.Statement .saveTimeout := fun _ _ h => by cases h
theorem NotSpelled.saveCompletion : NotSpelled.Statement .saveCompletion := fun _ _ h => by cases h
theorem NotSpelled.qualificationComplete : NotSpelled.Statement .qualificationComplete := fun _ _ h => by cases h
theorem NotSpelled.qualificationTimeout : NotSpelled.Statement .qualificationTimeout := fun _ _ h => by cases h
theorem NotSpelled.crystalEdgeLoss : NotSpelled.Statement .crystalEdgeLoss := fun _ _ h => by cases h
theorem NotSpelled.flashPhase : NotSpelled.Statement .flashPhase := fun _ _ h => by cases h
theorem NotSpelled.pollSend (line : FieldLine) (quiet : Nat) : NotSpelled.Statement (.pollSend line quiet) := fun _ _ h => by cases h
theorem NotSpelled.replyTimeout (line : FieldLine) : NotSpelled.Statement (.replyTimeout line) := fun _ _ h => by cases h
theorem NotSpelled.incompleteReplyGap (line : FieldLine) : NotSpelled.Statement (.incompleteReplyGap line) := fun _ _ h => by cases h
theorem NotSpelled.replyComplete (line : FieldLine) : NotSpelled.Statement (.replyComplete line) := fun _ _ h => by cases h
theorem NotSpelled.slotGrant : NotSpelled.Statement .slotGrant := fun _ _ h => by cases h
theorem NotSpelled.decoderTakeBlock : NotSpelled.Statement .decoderTakeBlock := fun _ _ h => by cases h
theorem NotSpelled.applyEntry : NotSpelled.Statement .applyEntry := fun _ _ h => by cases h
theorem NotSpelled.consoleFrameComplete : NotSpelled.Statement .consoleFrameComplete := fun _ _ h => by cases h
theorem NotSpelled.consoleGapExpiry : NotSpelled.Statement .consoleGapExpiry := fun _ _ h => by cases h
theorem NotSpelled.unknownKindRequest : NotSpelled.Statement .unknownKindRequest := fun _ _ h => by cases h
theorem NotSpelled.headNoticeSend : NotSpelled.Statement .headNoticeSend := fun _ _ h => by cases h
theorem NotSpelled.transmitComplete : NotSpelled.Statement .transmitComplete := fun _ _ h => by cases h
theorem NotSpelled.consoleRateSwitch : NotSpelled.Statement .consoleRateSwitch := fun _ _ h => by cases h
theorem NotSpelled.restartReset : NotSpelled.Statement .restartReset := fun _ _ h => by cases h
theorem NotSpelled.factoryDefaultsReset : NotSpelled.Statement .factoryDefaultsReset := fun _ _ h => by cases h
theorem NotSpelled.defineStation : NotSpelled.Statement .defineStation := fun _ _ h => by cases h
theorem NotSpelled.removeStation : NotSpelled.Statement .removeStation := fun _ _ h => by cases h
theorem NotSpelled.defineAsset : NotSpelled.Statement .defineAsset := fun _ _ h => by cases h
theorem NotSpelled.removeAsset : NotSpelled.Statement .removeAsset := fun _ _ h => by cases h
theorem NotSpelled.setProfile : NotSpelled.Statement .setProfile := fun _ _ h => by cases h
theorem NotSpelled.setArea : NotSpelled.Statement .setArea := fun _ _ h => by cases h
theorem NotSpelled.readStation : NotSpelled.Statement .readStation := fun _ _ h => by cases h
theorem NotSpelled.readAsset : NotSpelled.Statement .readAsset := fun _ _ h => by cases h
theorem NotSpelled.readProfile : NotSpelled.Statement .readProfile := fun _ _ h => by cases h
theorem NotSpelled.setTime : NotSpelled.Statement .setTime := fun _ _ h => by cases h
theorem NotSpelled.clockRetry : NotSpelled.Statement .clockRetry := fun _ _ h => by cases h
theorem NotSpelled.setDaylightSource : NotSpelled.Statement .setDaylightSource := fun _ _ h => by cases h
theorem NotSpelled.setDaylight : NotSpelled.Statement .setDaylight := fun _ _ h => by cases h
theorem NotSpelled.setLine : NotSpelled.Statement .setLine := fun _ _ h => by cases h
theorem NotSpelled.startLine : NotSpelled.Statement .startLine := fun _ _ h => by cases h
theorem NotSpelled.stopLine : NotSpelled.Statement .stopLine := fun _ _ h => by cases h
theorem NotSpelled.setSweepMode : NotSpelled.Statement .setSweepMode := fun _ _ h => by cases h
theorem NotSpelled.interrogate : NotSpelled.Statement .interrogate := fun _ _ h => by cases h
theorem NotSpelled.relearn : NotSpelled.Statement .relearn := fun _ _ h => by cases h
theorem NotSpelled.readRecord : NotSpelled.Statement .readRecord := fun _ _ h => by cases h
theorem NotSpelled.listRecords : NotSpelled.Statement .listRecords := fun _ _ h => by cases h
theorem NotSpelled.readIncident : NotSpelled.Statement .readIncident := fun _ _ h => by cases h
theorem NotSpelled.listIncidents : NotSpelled.Statement .listIncidents := fun _ _ h => by cases h
theorem NotSpelled.breakOut : NotSpelled.Statement .breakOut := fun _ _ h => by cases h
theorem NotSpelled.peek : NotSpelled.Statement .peek := fun _ _ h => by cases h
theorem NotSpelled.listQueue : NotSpelled.Statement .listQueue := fun _ _ h => by cases h
theorem NotSpelled.acknowledge : NotSpelled.Statement .acknowledge := fun _ _ h => by cases h
theorem NotSpelled.setAlert : NotSpelled.Statement .setAlert := fun _ _ h => by cases h
theorem NotSpelled.setNotices : NotSpelled.Statement .setNotices := fun _ _ h => by cases h
theorem NotSpelled.readStatus : NotSpelled.Statement .readStatus := fun _ _ h => by cases h
theorem NotSpelled.setConsoleRate : NotSpelled.Statement .setConsoleRate := fun _ _ h => by cases h
theorem NotSpelled.saveSettings : NotSpelled.Statement .saveSettings := fun _ _ h => by cases h
theorem NotSpelled.restart : NotSpelled.Statement .restart := fun _ _ h => by cases h
theorem NotSpelled.factoryDefaults : NotSpelled.Statement .factoryDefaults := fun _ _ h => by cases h
theorem NotSpelled.consoleCharacterReceived (byte : Byte) : NotSpelled.Statement (.consoleCharacterReceived byte) := fun _ _ h => by cases h
theorem NotSpelled.fieldCharacterReceived (line : FieldLine) (byte : Byte) : NotSpelled.Statement (.fieldCharacterReceived line byte) := fun _ _ h => by cases h
theorem NotSpelled.crystalCycleMeasured (period : Nat) : NotSpelled.Statement (.crystalCycleMeasured period) := fun _ _ h => by cases h

end Sys2Proof.Laws
end

