-- ==== Sys2Proof/Laws/Presents.lean ====
section
/-! SUPPORT. What serving a request comes to when its frame is presented: the facts about `settle`, `serve` and `reply` that statements about
requests cite instead of unfolding them. -/

namespace Sys2Proof.Machine

/-- `Presents` as a test. -/
def presentsTest (s : State) (code : Nat) (f : Frame) : Bool :=
  settled s && decide (s.link.requests.head? = some f) && decide (f.kind.toNat = code) && mayServe s &&
    match requestKind code with
    | none => true
    | some k => decide (f.body.length = k.length) && (!k.busySaving || decide (s.store.saving = none))

theorem presents_of_test {s : State} {code : Nat} {f : Frame} (h : presentsTest s code f = true) : Presents s code f := by
  simp only [presentsTest, Bool.and_eq_true, decide_eq_true_eq] at h
  obtain ⟨⟨⟨⟨h1, h2⟩, h3⟩, h4⟩, h5⟩ := h
  refine ⟨h1, h2, h3, h4, fun k hk => ?_, fun k hk hb => ?_⟩ <;> rw [hk] at h5 <;> simp_all

/-- Where nothing is due, settling changes nothing. -/
theorem settle_of_settled {s : State} (h : settled s = true) : settle s = s := by simp [settle, h]

/-- A reply is sent with data and what follows it only when its result is OK. -/
theorem reply_eq_withReply (f : Frame) (s : State) (a : Served) :
    reply f (s, a) = withReply f a.result (if a.result = .ok then a.data else []) a.after s := rfl

/-- A presented request is answered by its owner on the state as it stands. -/
theorem serve_presents {s : State} {code : Nat} {f : Frame} (h : Presents s code f) (hk : (requestKind code).isSome = true)
    (owner : List Byte → State → State × Served) : serve code owner s = reply f (owner f.body s) := by
  obtain ⟨k, hk⟩ := Option.isSome_iff_exists.mp hk
  obtain ⟨hs, hf, hc, hm, hl, hb⟩ := h
  obtain ⟨rest, hr⟩ : ∃ rest, s.link.requests = f :: rest := by
    cases hq : s.link.requests with
    | nil => simp [hq] at hf
    | cons g rest => exact ⟨rest, by simpa [hq] using hf⟩
  have hp : precheck k f s = none := by
    have := hl k hk
    cases hbk : k.busySaving
    · simp [precheck, this, hbk]
    · simp [precheck, this, hb k hk hbk]
  simp [serve, settle_of_settled hs, hk, hr, hm, hc, hp]

/-- A taken request with no data and nothing to follow. -/
theorem reply_ok (f : Frame) (s : State) : reply f (s, ok) = withReply f .ok [] .nothing s := rfl

/-- A refused request changes nothing. -/
theorem reply_refuse (f : Frame) (s : State) (r : Result) : reply f (s, refuse r) = withReply f r [] .nothing s := by
  simp [reply_eq_withReply, refuse]

end Sys2Proof.Machine
end

