-- ==== Sys2Proof/Laws/Tick.lean ====
section
/-! SUPPORT. The laws of a seconds tick: what a record that the tick brings to no end takes from it, how far the qualifier goes, and what the
grants come to. -/

namespace Sys2Proof.Machine

/-! ## A record's part of a tick -/

/-- An escalation test of a record that is not standing does nothing. -/
theorem escalationTest_not_standing {s : State} {key : Nat} {r : Record} (h : recordOf s key = some r) (hs : standing r = false) :
    escalationTest key s = s := by
  simp [escalationTest, h, escalates, hs]

/-- An escalation test that does not pass does nothing. -/
theorem escalationTest_fails {s : State} {key : Nat} {r : Record} (h : recordOf s key = some r) (hs : escalates r = false) :
    escalationTest key s = s := by
  simp [escalationTest, h, hs]

/-- The counts of a tick escalate a record exactly when the rise of its escalation timer alone does. -/
theorem escalates_countTick (r : Record) : escalates (countTick r) = escalates (riseEscTimer r) := by
  cases hs : r.state with
  | qualifying =>
    have h1 : standing (countTick r) = false := by
      cases hc : r.terms.confirm <;> simp [countTick, hs, hc, standing]
    have h2 : standing (riseEscTimer r) = false := by simp [riseEscTimer, standing, hs]
    simp [escalates, h1, h2]
  | active => simp [countTick, hs]
  | restoring =>
    cases hr : r.seen <;> cases hi : r.incident <;> simp [countTick, riseEscTimer, escalates, standing, hs, hr, hi]
  | restored => simp [countTick, riseEscTimer, escalates, standing, hs]

/-- A tick that brings a record to no end changes that record's counts alone, and nothing when it is held. -/
theorem recordTickDefault_quiet {s : State} {key : Nat} (h : recordEnds s key = false) :
    recordTickDefault s key = s ∨ recordTickDefault s key = modRecord key countTick s := by
  unfold recordTickDefault recordTickBy
  cases hr : recordOf s key with
  | none => exact .inl rfl
  | some r =>
    simp only [recordEnds, hr, endingOf, Ending.any] at h
    cases hh : isHeld s key with
    | true => left; simp [recordTick, hr, hh]
    | false =>
      right
      simp only [hh, Bool.not_false, Bool.true_and, Bool.or_eq_false_iff] at h
      obtain ⟨⟨⟨h1, h2⟩, h3⟩, h4⟩ := h
      simp only [recordTick, hr, hh, h1, h2, h3, Bool.false_eq_true, if_false]
      refine escalationTest_fails (r := countTick r) ?_ ?_
      · rw [recordOf_modRecord_self, hr]; rfl
      · rw [escalates_countTick r, h4]

/-- What the qualifier's way over records that the tick brings to no end leaves as it is. -/
structure CountFrame (s t : State) (keys : List Nat) : Prop where
  frame : t = { s with faults := t.faults, tick := { s.tick with qualifier := t.tick.qualifier } }
  others : ∀ k, k ∉ keys → recordOf t k = recordOf s k

/-- The qualifier's way changes the counts of the records on it and where it stands, and nothing else. -/
theorem qualifyUpTo_frame (keys : List Nat) : ∀ s : State, CountFrame s (qualifyUpTo keys s) keys := by
  induction keys with
  | nil => intro s; exact ⟨rfl, fun _ _ => rfl⟩
  | cons key keys ih =>
    intro s
    unfold qualifyUpTo
    split
    · exact ⟨rfl, fun _ _ => rfl⟩
    · rename_i h
      have hq := recordTickDefault_quiet (by simpa using h)
      obtain ⟨h1, h2⟩ := ih (recordTickDefault s key)
      refine ⟨?_, fun k hk => ?_⟩
      · rcases hq with hq | hq <;> rw [hq] at h1 ⊢
        · exact h1
        · exact h1
      · simp only [List.mem_cons, not_or] at hk
        rw [h2 k hk.2]
        rcases hq with hq | hq <;> rw [hq]
        exact recordOf_modRecord_ne _ _ hk.1

/-! ## Grants -/

/-- A grant that leaves another one due was due itself, and took one line off the wait list. -/
theorem grantHead_waiting {s : State} (h : grantDue (grantHead s).intake = true) :
    (grantHead s).intake.waiting.length + 1 = s.intake.waiting.length := by
  unfold grantHead at h ⊢
  split at h
  · rename_i l rest i hw _
    simp only [grantSlot, enterPolling, modLine, modIntake] at h ⊢
    simp [hw]
  · rename_i h1
    simp only [grantDue, Bool.and_eq_true, Bool.not_eq_true', List.isEmpty_eq_false_iff] at h
    obtain ⟨i, hi⟩ := Option.isSome_iff_exists.mp h.2
    cases hw : s.intake.waiting with
    | nil => exact absurd hw h.1
    | cons l rest => exact absurd hi (fun hi => h1 l rest i hw hi)

/-- Where no grant is due none is made. -/
theorem grantHead_stable {s : State} (h : grantDue s.intake = false) : grantHead s = s := by
  unfold grantHead
  split
  · rename_i l rest i hw hf
    simp [grantDue, hw, hf] at h
  · rfl

/-- A grant changes the intake and the lines alone. -/
theorem grantHead_frame (s : State) : grantHead s = { s with intake := (grantHead s).intake, lines := (grantHead s).lines } := by
  unfold grantHead
  split <;> rfl

/-! ## The Decoder takes a block -/

/-- Where no block waits for an IDLE Decoder none is taken. -/
theorem takeBlock_stable {s : State} (h : takeDue s.intake = false) : takeBlock s = s := by
  unfold takeBlock
  split
  · rename_i i rest hd ho
    simp [takeDue, hd, ho] at h
  · rfl

/-- A block is taken by the IDLE Decoder, at its first entry, and the intake's slots and wait list stay. -/
theorem takeBlock_takes {s : State} {i : Nat} {rest : List Nat} (hd : s.intake.decoder = .idle) (ho : s.intake.order = i :: rest) :
    takeBlock s = { s with intake := { s.intake with order := rest, decoder := .decoding i 0 } } := by
  unfold takeBlock
  rw [hd, ho]
  rfl

/-- After a taking none is due. -/
theorem takeBlock_done (s : State) : takeDue (takeBlock s).intake = false := by
  unfold takeBlock
  split
  · simp [takeDue]
  · rename_i h
    cases hd : s.intake.decoder with
    | idle => cases ho : s.intake.order with
      | nil => simp [takeDue, ho]
      | cons i rest => exact absurd ho (h i rest hd)
    | decoding i n => simp [takeDue, hd]

/-! ## Quiet lines -/

/-- A second ends on every line. -/
@[simp] theorem lineOf_quietLines (l : FieldLine) (s : State) : lineOf (quietLines s) l = secondQuiet (lineOf s l) := by cases l <;> rfl

/-- The end of a second on the lines changes the lines alone. -/
theorem quietLines_frame (s : State) : quietLines s = { s with lines := (quietLines s).lines } := rfl

end Sys2Proof.Machine
end

