-- ==== Sys2Proof/Machine/Outstation.lean ====
section
/-! DEFINITION. The outstation's side of the poll protocol (R40, R41). An outstation is another agent: nothing in the step uses this
file; it says what the characters that FIELD_CHARACTER_RECEIVED brings may be (log entry 22). -/

namespace Sys2Proof.Machine

/-- R41: a REPORT or SNAPSHOT block that an outstation has sent. -/
structure SentBlock where
  snapshot : Bool
  toggle : Bool
  more : Bool
  entries : List Entry
  deriving DecidableEq, Repr

/-- R40, R41: what an outstation keeps. -/
structure Outstation where
  /-- R40: the most recent report; none since its own start-up. -/
  recent : Option SentBlock := none
  /-- R40: the pending changes, one entry for each changed point. -/
  changes : List Entry := []
  /-- The present state or value of every point. -/
  present : List Entry := []
  /-- R41: the blocks of the current snapshot. -/
  frozen : Option (List SentBlock) := none
  /-- R41: how many blocks of it have been sent. -/
  sent : Nat := 0
  deriving DecidableEq, Repr

/-- R41: the blocks of at most 40 entries of a list; `fuel` bounds the number of blocks. -/
def cutBlocks (toggle : Bool) : Nat → List Entry → List SentBlock
  | 0, _ => []
  | fuel + 1, es =>
    if es.length ≤ 40 then [{ snapshot := true, toggle, more := false, entries := es }]
    else { snapshot := true, toggle, more := true, entries := es.take 40 } :: cutBlocks toggle fuel (es.drop 40)

/-- R41: an entry of a snapshot: a DIGITAL entry has edge count 0. -/
def frozenEntry (e : Entry) : Entry :=
  match e.data with
  | .digital st _ => { e with data := .digital st 0 }
  | .analogue _ => e

/-- R41: what freezing leaves of the pending changes: the edges. -/
def edgesPending (e : Entry) : Bool :=
  match e.data with
  | .digital _ edges => decide (edges ≠ 0)
  | .analogue _ => false

/-- The outstation sends a block of its current snapshot, the n-th from 0, or answers NOTHING. -/
def sendFrozen (n : Nat) (o : Outstation) : Outstation × Option SentBlock :=
  match (o.frozen.getD [])[n]? with
  | none => (o, none)
  | some b => ({ o with sent := n + 1, recent := some b }, some b)

/-- R41: freeze a new snapshot and send its first block. -/
def freeze (toggle : Bool) (o : Outstation) : Outstation × Option SentBlock :=
  let entries := o.present.map frozenEntry
  sendFrozen 0 { o with changes := o.changes.filter edgesPending, frozen := some (cutBlocks toggle (entries.length + 1) entries) }

/-- R40: a new REPORT from the pending changes, with the other toggle, or NOTHING. -/
def newReport (toggle : Bool) (o : Outstation) : Outstation × Option SentBlock :=
  if o.changes.isEmpty then (o, none)
  else
    let b : SentBlock := { snapshot := false, toggle := !toggle, more := decide (40 < o.changes.length), entries := o.changes.take 40 }
    ({ o with changes := o.changes.drop 40, recent := some b }, some b)

/-- R40: the answer to a POLL; none is NOTHING. -/
def answerPoll (toggle : Bool) (o : Outstation) : Outstation × Option SentBlock :=
  match o.recent with
  | none => freeze (!toggle) o
  | some b => if toggle = b.toggle then newReport toggle o else (o, some b)

/-- R41: the answer to a SNAPSHOT poll; none is NOTHING. -/
def answerSnapshot (more toggle : Bool) (o : Outstation) : Outstation × Option SentBlock :=
  if more then
    match o.frozen with
    | none => (o, none)
    | some _ => if toggle = decide (o.sent % 2 = 1) then sendFrozen o.sent o else sendFrozen (o.sent - 1) o
  else freeze true o

end Sys2Proof.Machine
end

