-- ==== Sys2Proof/WellFormed.lean ====
section
/-! DEFINITION. Which commands can reach the part: every operand within the range the spec gives it. The step does not ask for it: a
command about an asset or a feeder that does not exist changes nothing. -/

namespace Sys2Proof

/-- R3: an asset number. -/
def assetInRange (a : Nat) : Bool := decide (a ≤ Config.maxAsset)

/-- R3: a feeder number. -/
def feederInRange (f : Nat) : Bool := decide (1 ≤ f) && decide (f ≤ Config.maxArea)

/-- R21: a measured period is more than nothing. -/
def periodInRange (p : Nat) : Bool := decide (0 < p)

/-- Every operand of the command is in its range. -/
def Instr.wellFormed : Instr → Bool
  | .confirmTermReached a _ => assetInRange a
  | .countWindowExpiry a _ => assetInRange a
  | .clearTimeReached a _ => assetInRange a
  | .escalation a _ => assetInRange a
  | .releaseTimerExpiry f => feederInRange f
  | .crystalCycleMeasured p => periodInRange p
  | .powerOn | .resetPin | .secondsTick _ | .stormWindowRotation | .settlingEnd | .sweepIntervalExpiry _ | .saveTimeout
  | .saveCompletion | .qualificationComplete | .qualificationTimeout | .crystalEdgeLoss | .flashPhase | .pollSend _ _
  | .replyTimeout _ | .incompleteReplyGap _ | .replyComplete _ | .slotGrant | .decoderTakeBlock | .applyEntry
  | .consoleFrameComplete | .consoleGapExpiry | .unknownKindRequest | .headNoticeSend | .transmitComplete | .consoleRateSwitch
  | .restartReset | .factoryDefaultsReset | .defineStation | .removeStation | .defineAsset | .removeAsset | .setProfile | .setArea
  | .readStation | .readAsset | .readProfile | .setTime | .clockRetry | .setDaylightSource | .setDaylight | .setLine | .startLine
  | .stopLine | .setSweepMode | .interrogate | .relearn | .readRecord | .listRecords | .readIncident | .listIncidents | .breakOut
  | .peek | .listQueue | .acknowledge | .setAlert | .setNotices | .readStatus | .setConsoleRate | .saveSettings | .restart
  | .factoryDefaults | .consoleCharacterReceived _ | .fieldCharacterReceived _ _ => true

end Sys2Proof
end

