-- ==== Sys2Proof/Tests/Slice0.lean ====
section
/-! SUPPORT. Small tests: the smoke test of WellFormed, worked values of the spec, and for every obligation with hypotheses a concrete
state and operands that meet them, for each clause at a boundary of its range. -/

namespace Sys2Proof.Tests

open Sys2Proof Sys2Proof.Machine

/-! ## WellFormed -/

theorem test_asset_4096_refused : Instr.wellFormed (.confirmTermReached 4096 .mainsLost) = false ∧
    Instr.wellFormed (.countWindowExpiry 4096 .loopChatter) = false ∧ Instr.wellFormed (.clearTimeReached 4096 .mainsLost) = false ∧
    Instr.wellFormed (.escalation 4096 .mainsLost) = false ∧ Instr.wellFormed (.escalation 4095 .mainsLost) = true := by decide

theorem test_feeder_0_and_65_refused : Instr.wellFormed (.releaseTimerExpiry 0) = false ∧
    Instr.wellFormed (.releaseTimerExpiry 65) = false ∧ Instr.wellFormed (.releaseTimerExpiry 64) = true := by decide

theorem test_period_0_refused : Instr.wellFormed (.crystalCycleMeasured 0) = false ∧
    Instr.wellFormed (.crystalCycleMeasured 1) = true := by decide

/-! ## States to test on -/

def bytesOf (l : List Nat) : List Byte := l.map (BitVec.ofNat 8)

/-- A request of a kind. -/
def frameOf (code : Nat) (body : List Nat) : Frame := { kind := BitVec.ofNat 8 code, tag := 7#8, body := bytesOf body }

/-- The request waits as the only frame of the intake. -/
def asking (f : Frame) (s : State) : State := { s with link := { s.link with requests := [f] } }

/-- The state after a command that answers a next state. -/
def after (o : Answer) : State := match o with
  | .next t => t
  | _ => State.reset

/-- Outstation 1 on line A, address 1. -/
def station1 : Station :=
  { settings := { line := .a, address := 1, priority := 2, enabled := true }, pointMap := [(0, 0, .supply), (1, 1, .main)] }

/-- Outstation 120 on line B, address 30. -/
def station120 : Station := { settings := { line := .b, address := 30, priority := 4, enabled := true } }

/-- A CABINET that supplies feeder 1. -/
def cabinet : Asset := { settings := {
  kind := .cabinet, station := 1, points := { main := none, aux := none, door := none, supply := some 0, detect := none }
  profile := 3, priority := 2, area := 64, feeder := 1, lampCount := 0, doubling := false, label := [] } }

/-- A LAMP-CIRCUIT of feeder 1. -/
def circuit : Asset := { settings := {
  kind := .lampCircuit, station := 1, points := { main := some 1, aux := none, door := none, supply := none, detect := none }
  profile := 0, priority := 2, area := 64, feeder := 1, lampCount := 60, doubling := false, label := [] } }

/-- Two outstations, a cabinet as asset 0 and a lamp circuit as asset 1. -/
def yard : State :=
  { directory := { stations := [(1, station1), (120, station120)], assets := [(0, cabinet), (1, circuit)] } }

/-- A record in a state, on the factory profile for lamps. -/
def recordIn (st : RecordState) (c : Condition) : Record := { newRecord 0 (termsOf c Profile.lamps) 0 with state := st }

/-- The yard with one record, at which the qualifier stands. -/
def atRecord (a : Nat) (c : Condition) (r : Record) : State :=
  { yard with faults := [(recordKey a c, r)], tick := { qualifier := some (recordKey a c) } }

/-- The yard with line A in an attempt of a visit to outstation 1, with these characters received, and its slot reserved. -/
def polling (v : Visit) (chars : List Byte) : State :=
  { yard with
    lines := { a := { state := .polling, visit := some v, exchange := .reply chars } }
    intake := { slots := [.reserved .a, .free, .free, .free, .free, .free, .free, .free] } }

/-- A sweep's first visit to outstation 1. -/
def visit1 : Visit := { station := 1, origin := .sweep, kind := .poll }

/-- The Decoder in the first of the entries of a block from outstation 1. -/
def decoding (es : List Entry) : State :=
  { yard with intake := {
      slots := [.filled { line := .a, station := 1, snapshot := false, entries := es, arrival := 0 }, .free, .free, .free, .free, .free,
        .free, .free]
      decoder := .decoding 0 0 } }

/-! ## Values of the spec -/

/-- R180: the check value of the CRC, over the nine characters 1 to 9. -/
theorem test_crc_check_value : crc16 (bytesOf [49, 50, 51, 52, 53, 54, 55, 56, 57]) = 0x29B1#16 := by decide +kernel

/-- R184: without an image, power-on gives the reset state. -/
theorem test_power_on_is_reset : exec .powerOn State.reset = .next State.reset := rfl

/-- R177: kinds, and a code that is none. -/
theorem test_request_kinds : (requestKind 0x78).map (fun k => k.length) = some 0 ∧ requestKind 0x16 = none := by decide

/-- Log entry 21: no word spells a command. -/
theorem test_no_word_spells_a_command : State.reset.withFetchWord 8 0x78 = State.reset := rfl

/-- 05, "a lamp circuit's first night": the five judged readings, with reference, band and estimate. -/
theorem test_first_night :
    judge .lamps 0 1180 = ⟨.normal, 1180, 0⟩ ∧
    judge .lamps 1180 1150 = ⟨.normal, 1179, -254⟩ ∧ lampsEstimate .normal (-254) 24 = 1 ∧
    judge .lamps 1179 1100 = ⟨.low, 1179, -670⟩ ∧ lampsEstimate .low (-670) 24 = 2 ∧
    judge .lamps 1179 0 = ⟨.failLow, 1179, -10000⟩ ∧ lampsEstimate .failLow (-10000) 24 = 24 := by decide

/-- 08, "Example of rank": each of the six items ranks ahead of the next. -/
theorem test_rank_example :
    let item (t : Thing) (r : Reason) (c o : Nat) : Item := { thing := t, reason := r, rankClass := c, orderTime := o }
    let items := [item (.incident 121) .new 1 5200, item (.record (recordKey 640 .signDark)) .new 1 5300, item (.incident 31) .new 2 5400,
      item (.record (recordKey 200 .doorOpen)) .new 2 5400, item (.record (recordKey 101 .partialOut)) .new 3 4000,
      item (.record (recordKey 55 .mainsLost)) .restored 4 3000]
    items.reverse.foldl (fun q i => insertItem i q) [] = items := by decide

/-- R179: the SNAPSHOT poll of a continuation has kind 1 and MORE, and toggle 16 after one snapshot block. -/
theorem test_snapshot_control : pollFrame { visit1 with kind := .snapshot, decided := true, accepted := 1, snapshots := 1 } station1 =
    0xC3#8 :: 1#8 :: 145#8 :: 0#8 :: enc16 (crc16 [1#8, 145#8, 0#8]).toNat := by decide +kernel

/-- R179: a DIGITAL and an ANALOGUE entry; a point above 63 and another form are no entries. -/
theorem test_report_entries :
    decodeEntries (bytesOf [0, 1, 2, 255, 63, 2, 1, 4]) = some [⟨0, .digital 1 255⟩, ⟨63, .analogue 260⟩] ∧
    decodeEntries (bytesOf [64, 1, 0, 0]) = none ∧ decodeEntries (bytesOf [0, 3, 0, 0]) = none := by decide

/-- 09, "two requests in flight": a notice comes before the next reply, and a third waiting frame sets OVERRUN. -/
theorem test_third_frame_overruns :
    (offerFrame (frameOf 0x60 []) { State.reset with link := { requests := [frameOf 0x51 [], frameOf 0x62 []] } }).link.flags.overrun
      = true := by decide

/-- R91: a trail keeps the last four entries. -/
theorem test_trail_keeps_four : (addTrail [⟨.qualifying, 0⟩, ⟨.active, 1⟩, ⟨.restoring, 2⟩, ⟨.active, 3⟩] ⟨.restoring, 4⟩) =
    [⟨.active, 1⟩, ⟨.restoring, 2⟩, ⟨.active, 3⟩, ⟨.restoring, 4⟩] := by decide

/-- R59: of the requests for a slot that one tick makes, line A's joins before line D's, whichever line's command comes first. -/
theorem test_requests_join_in_line_order :
    let resting : LineController := { state := .resting, interval := 1 }
    let s : State := { yard with
      directory := { stations := [(1, station1), (2, { station1 with settings := { station1.settings with line := .d } })] }
      lines := { a := resting, d := resting }
      intake := { slots := List.replicate 8 (.reserved .b) }
      tick := { lines := [.a, .d] } }
    (after (exec (.sweepIntervalExpiry .d) s)).intake.waiting = [.a, .d] := by decide +kernel

/-- R36, R55: the driver enable is asserted over the 60 bit times of a poll's 6 characters, and STOP-LINE releases it. -/
theorem test_driver_enable_over_poll :
    let s : State := { yard with lines := { a := { state := .polling, visit := some visit1, quiet := 4 } } }
    let drives (s : State) : Bool := (lineOf s .a).driverEnable
    let t := after (exec (.pollSend .a 0) s)
    drives s = false ∧ drives t = true ∧ drives (after (exec (.pollSend .a 59) t)) = true ∧
      drives (after (exec (.pollSend .a 60) t)) = false ∧ drives (stopLine .a t) = false := by decide +kernel

/-- R38: bit times on a RESTING line count toward its guard, and a line that a whole second has found quiet has been quiet for longer than any
guard. -/
theorem test_quiet_counts_on_every_line :
    let s (quietSecond : Bool) : State := { yard with lines := { a := { state := .resting, interval := 9, quietSecond } } }
    (lineOf (after (exec (.pollSend .a 3) (s false))) .a).quiet = 3 ∧
      (lineOf (after (exec (.secondsTick true) (s true))) .a).quiet = 31 ∧
      (lineOf (after (exec (.secondsTick true) (s false))) .a).quiet = 0 := by decide +kernel

/-- R62: the IDLE Decoder has taken a waiting block before a request is served. -/
theorem test_idle_decoder_takes_before_a_request :
    let f := frameOf 0x60 []
    let s : State := asking f { decoding [] with intake := { (decoding []).intake with decoder := .idle, order := [0] } }
    (after (exec .peek s)).intake.decoder = .decoding 0 0 ∧ (after (exec .peek s)).intake.order = [] := by decide +kernel

/-- R165: 0xA6 on the line, least significant bit first between a start bit and a stop bit. -/
theorem test_character_bits : characterBits 0xA6#8 = [false, false, true, true, false, false, true, false, true, true] := by decide

/-! ## Witnesses: the queue, resets, the tick -/

/-- A command in front; an empty queue, at the start of a second and with the tick due. -/
theorem witness_StepRunsFrontCommand : (State.reset.withPending [.powerOn]).pending = [.powerOn] ∧ State.reset.pending = [] ∧
    State.reset.timebase.phase ≤ fullSecond ∧
    (let s : State := { State.reset with timebase := { phase := fullSecond } }; s.pending = [] ∧ s.timebase.phase ≤ fullSecond) :=
  ⟨rfl, rfl, Nat.zero_le _, rfl, Nat.le_refl _⟩

/-- Nothing due; a part of a tick due; and a block for the IDLE Decoder. -/
theorem witness_CommandsSettleFirst : settled State.reset = true ∧ settled { State.reset with tick := { save := true } } = false ∧
    settled { State.reset with intake := { order := [0] } } = false := by decide

/-- A stored configuration: outstation 1 with the cabinet on point 0; line A starts by itself, line B does not. -/
def stored : Configuration :=
  { stations := [(1, station1.settings)], assets := [(0, cabinet.settings, 0)], lineA := { autoStart := true } }

/-- An invalid image; a valid one; and one with the factory values, with which no line starts by itself. -/
theorem witness_PowerOnLoadsImageOrFactoryValues :
    (∀ i, ({ image := some { contents := {}, crc := 0#16, mark := false } } : Store).image = some i → i.valid = false) ∧
    (∀ c : Configuration, Image.valid { contents := c, crc := crc16 (Config.imageBytes c), mark := true } = true) ∧
    (stored.line .a).autoStart = true ∧ (stored.line .a).mode = .continuous ∧ (stored.line .b).autoStart = false ∧
    (∀ l, (({} : Configuration).line l).autoStart = false) ∧
    (0, cabinet.settings, 0) ∈ stored.assets ∧ cabinet.settings.station = 1 ∧ (0, Role.supply) ∈ rolePoints cabinet.settings.points ∧
    ∀ x ∈ stored.assets, x.2.1.station = 1 → ∀ r, (0, r) ∈ rolePoints x.2.1.points → x.1 = 0 ∧ r = .supply := by
  refine ⟨fun i h => ?_, fun c => by simp [Image.valid], rfl, rfl, rfl, fun l => by cases l <;> rfl, by decide, rfl, by decide, ?_⟩
  · cases h
    rfl
  · intro x hx _ r hr
    obtain rfl := List.mem_singleton.mp hx
    simpa [rolePoints, cabinet] using hr

/-- The yard after the reply to RESTART or FACTORY-DEFAULTS. -/
def replied (what : AfterReply) : State := { yard with link := { after := what } }

/-- The request; the reset with no line to start; and with line A, which starts by itself, and line B, which does not. -/
theorem witness_RestartKeepsSettings : Presents (asking (frameOf 0x79 []) yard) 0x79 (frameOf 0x79 []) ∧
    settled (replied .restart) = true ∧ (replied .restart).link.after = .restart ∧
    (∀ l, (lineOf (replied .restart) l).settings.autoStart = false) ∧
    (let s := { replied .restart with lines := { a := { settings := { autoStart := true } } } }
     settled s = true ∧ s.link.after = .restart ∧ (lineOf s .a).settings.autoStart = true ∧
      (lineOf s .a).settings.mode = .continuous ∧ (lineOf s .b).settings.autoStart = false) :=
  ⟨presents_of_test (by decide), by decide, rfl, fun l => by cases l <;> rfl, by decide⟩

theorem witness_FactoryDefaultsReset : Presents (asking (frameOf 0x7A []) yard) 0x7A (frameOf 0x7A []) ∧
    settled (replied .factoryDefaults) = true ∧ (replied .factoryDefaults).link.after = .factoryDefaults :=
  ⟨presents_of_test (by decide), by decide, rfl⟩

/-- The last tick, and the held run-second; in QUALIFYING a rest of the second that ends at the 2 s, and one that passes them; and the count
reached. -/
theorem witness_SecondsTickRaisesRunSecond :
    let at' (n : Nat) : State := { yard with timebase := { runSecond := n } }
    let q (p e : Nat) : Timebase := { phase := p, elapsed := e }
    settled (at' 4294967294) = true ∧ (at' 4294967294).timebase.runSecond < Config.maxRunSecond ∧
      settled (at' 4294967295) = true ∧ (at' 4294967295).timebase.runSecond = Config.maxRunSecond ∧
      ({ monitor := .onInternal } : Timebase).monitor ≠ .qualifying ∧
      (q 0 fullSecond).monitor = .qualifying ∧ (q 0 fullSecond).goodCycles < 2048 ∧ (q 0 fullSecond).elapsed < qualifyingLimit ∧
      (q 0 fullSecond).elapsed + (fullSecond - (q 0 fullSecond).phase) ≤ qualifyingLimit ∧
      qualifyingLimit < (q 0 (fullSecond + 1)).elapsed + (fullSecond - (q 0 (fullSecond + 1)).phase) ∧
      2048 ≤ ({ goodCycles := 2048 } : Timebase).goodCycles := by decide +kernel

/-- An unheld QUALIFYING record one tick short of its end, and one held by the gate; an ACTIVE record at the start of its escalation timer, and a COUNT
record with two ticks left. -/
def twoRecords : State := { yard with faults :=
  [(recordKey 0 .mainsLost, { recordIn .qualifying .mainsLost with timer := 118 }),
   (recordKey 0 .doorOpen, recordIn .active .doorOpen),
   (recordKey 1 .circuitDark, { recordIn .qualifying .circuitDark with timer := 119 }),
   (recordKey 1 .loopChatter, { recordIn .qualifying .loopChatter with windowLeft := some 2 })] }

/-- A state with the counts that a tick lowers, each at n. -/
def counting (run n : Nat) : State := { yard with
  timebase := { runSecond := run }
  gate := { value := .night, settling := true, count := n }
  incidents := { slots := [(feederSlot 1, { state := .releasing, release := n })] }
  lines := { a := { state := .resting, interval := n } }
  store := { saving := some { count := n, captured := {} } } }

/-- A tick that ends no record, on a held record and three others; the counts at 1 before a rotation, and at 2 at another tick. -/
theorem witness_TickRaisesRecordTimers : settled twoRecords = true ∧ Table.wf twoRecords.faults = true ∧
    twoRecords.timebase.runSecond < Config.maxRunSecond ∧ (∀ key, recordEnds twoRecords key = false) ∧
    isHeld twoRecords (recordKey 0 .mainsLost) = false ∧ isHeld twoRecords (recordKey 1 .circuitDark) = true ∧
    (recordIn .qualifying .mainsLost).terms.confirm = .time 120 ∧ isHeld twoRecords (recordKey 0 .doorOpen) = false ∧
    isHeld twoRecords (recordKey 1 .loopChatter) = false ∧ (recordIn .qualifying .loopChatter).terms.confirm = .count 20 600 ∧
    settled (counting 29 1) = true ∧ (29 + 1) % 30 = 0 ∧ settled (counting 4294967294 2) = true ∧
    (slotOf (counting 29 1) (feederSlot 1)).state = .releasing ∧ (counting 29 1).store.saving = some { count := 1, captured := {} } ∧
    (∀ q, let s : State := { yard with lines := { a := { quietSecond := q } } }; settled s = true ∧ (lineOf s .a).quietSecond = q) := by
  refine ⟨by decide, by decide, by decide, fun key => ?_, by decide, by decide, rfl, by decide, by decide, rfl, by decide, by decide,
    by decide, by decide, rfl, by decide⟩
  cases h : recordOf twoRecords key with
  | none => simp [recordEnds, h]
  | some r =>
    have quiet : ∀ e ∈ twoRecords.faults, recordEnds twoRecords e.1 = false := by decide
    exact quiet _ (Table.mem_of_find h)

/-- At the last tick, one tick short of it, held, and observed. -/
theorem witness_ConfirmTermConfirmsRecord :
    let r := { recordIn .qualifying .mainsLost with timer := 119 }
    let q := { recordIn .qualifying .mainsLost with timer := 118 }
    let h := { recordIn .qualifying .circuitDark with timer := 119 }
    StandsAt (atRecord 0 .mainsLost r) 0 .mainsLost r ∧ r.state = .qualifying ∧ r.terms.confirm = .time 120 ∧ 120 ≤ r.timer + 1 ∧
      recordOf twoRecords (recordKey 0 .mainsLost) = some q ∧ isHeld twoRecords (recordKey 0 .mainsLost) = false ∧ q.timer + 1 < 120 ∧
      recordOf twoRecords (recordKey 1 .circuitDark) = some h ∧ h.state = .qualifying ∧ h.terms.confirm = .time 120 ∧
      isHeld twoRecords (recordKey 1 .circuitDark) = true ∧ heldBy twoRecords 0 .mainsLost = .notHeld :=
  ⟨⟨by decide, by decide, by decide, by decide⟩, rfl, rfl, by decide, by decide, by decide, by decide, by decide, rfl, rfl, by decide,
    by decide⟩

/-- A lamp circuit of area 64 and no feeder, and one of neither. -/
def loneCircuit : Asset := { circuit with settings := { circuit.settings with feeder := 0 } }

def freeCircuit : Asset := { circuit with settings := { circuit.settings with feeder := 0, area := 0 } }

/-- A record of asset 1 at its last tick, at night, with the asset, the slots and the storm window of area 64 given; the area opens at 3. -/
def claiming (x : Asset) (slots : List (Nat × Slot)) (last : Nat) : State :=
  { atRecord 1 .circuitDark { recordIn .qualifying .circuitDark with timer := 119 } with
    gate := { value := .night }
    directory := { stations := [(1, station1)], assets := [(1, x)], areas := [(64, { stormThreshold := 3 })] }
    incidents := { slots, storms := [(64, [0, 0, 0, 0, 0, 0, 0, 0, 0, last])] } }

/-- The root of a feeder that is not open; a dark circuit of an open feeder; a circuit of no feeder at the confirmation that opens its area, at one that does
not, and in an absorbing area; one of no area; one whose feeder is not open; and OVERCURRENT on one whose feeder is. -/
theorem witness_ConfirmationIsClaimed :
    let root := { recordIn .qualifying .mainsLost with timer := 119 }
    let r := { recordIn .qualifying .circuitDark with timer := 119 }
    let open' (n : Nat) (absorbing : Bool) : List (Nat × Slot) := [(n, { state := .opened, absorbing })]
    StandsAt (atRecord 0 .mainsLost root) 0 .mainsLost root ∧ root.terms.confirm = .time 120 ∧ 120 ≤ root.timer + 1 ∧
      assetOf (atRecord 0 .mainsLost root) 0 = some cabinet ∧ cabinet.settings.feeder ≤ 64 ∧ cabinet.settings.area ≤ 64 ∧
      (slotOf (atRecord 0 .mainsLost root) (feederSlot 1)).state ≠ .opened ∧
      (∀ p ∈ [(circuit, open' 121 false, 255), (loneCircuit, [], 2), (loneCircuit, [], 1), (loneCircuit, open' 248 true, 255),
          (freeCircuit, [], 0), (circuit, [], 2)],
        let s := claiming p.1 p.2.1 p.2.2
        Table.wf s.faults = true ∧ s.tick.qualifier = some (recordKey 1 .circuitDark) ∧ recordOf s (recordKey 1 .circuitDark) = some r ∧
          isHeld s (recordKey 1 .circuitDark) = false ∧ assetOf s 1 = some p.1 ∧
          windowOf s 64 = List.replicate 9 0 ++ [p.2.2] ∧ (areaOf s 64).stormThreshold = 3) ∧
      (slotOf (claiming circuit (open' 121 false) 255) (feederSlot 1)).state = .opened ∧
      (slotOf (claiming loneCircuit (open' 248 true) 255) (areaSlot 64)).absorbing = true ∧
      (slotOf (claiming circuit [] 2) (feederSlot 1)).state ≠ .opened ∧ circuit.settings.feeder = 1 ∧
      (let o := { recordIn .qualifying .overcurrent with timer := 119 }
       let s : State := { atRecord 1 .overcurrent o with gate := { value := .night }, incidents := { slots := open' 121 false } }
       StandsAt s 1 .overcurrent o ∧ o.terms.confirm = .time 120 ∧ assetOf s 1 = some circuit ∧ (slotOf s (feederSlot 1)).state = .opened) :=
  ⟨⟨by decide, by decide, by decide, by decide⟩, rfl, by decide, rfl, by decide, by decide, by decide, by decide, by decide, by decide,
    by decide, rfl, ⟨by decide, by decide, by decide, by decide⟩, rfl, rfl, by decide⟩

/-- The last tick of a window, the last but one, and a record held by silence. -/
theorem witness_CountWindowExpiryRemovesRecord :
    let r := { recordIn .qualifying .loopChatter with windowLeft := some 1 }
    let q := { recordIn .qualifying .loopChatter with windowLeft := some 2 }
    let silent : State := { atRecord 1 .loopChatter q with
      directory := { yard.directory with stations := [(1, { station1 with state := .silent })] } }
    StandsAt (atRecord 1 .loopChatter r) 1 .loopChatter r ∧ r.state = .qualifying ∧ r.terms.confirm = .count 20 600 ∧
      r.windowLeft.getD 0 ≤ 1 ∧
      recordOf (atRecord 1 .loopChatter q) (recordKey 1 .loopChatter) = some q ∧ q.state = .qualifying ∧
      q.terms.confirm = .count 20 600 ∧ q.windowLeft = some 2 ∧ isHeld (atRecord 1 .loopChatter q) (recordKey 1 .loopChatter) = false ∧
      recordOf silent (recordKey 1 .loopChatter) = some q ∧ isHeld silent (recordKey 1 .loopChatter) = true :=
  ⟨⟨by decide, by decide, by decide, by decide⟩, rfl, rfl, by decide, by decide, rfl, rfl, rfl, by decide, by decide, by decide⟩

/-- MAINS-LOST of asset 0 at its clear time, a member of a slot, which stands so. -/
def clearing (n : Nat) (v : Slot) : State :=
  { atRecord 0 .mainsLost { recordIn .restoring .mainsLost with timer := 299, incident := some n } with incidents := { slots := [(n, v)] } }

/-- A seen record outside every incident. The root of an OPEN feeder, which one cabinet supplies; a member that is no root; the last member of an OPEN area that
does not absorb, and of one that does; and a member of an outstation's slot, with auto_close off and on. -/
theorem witness_ClearTimeRestoresRecord :
    let q := { recordIn .restoring .mainsLost with timer := 299, seen := true }
    let r (n : Nat) : Record := { recordIn .restoring .mainsLost with timer := 299, incident := some n }
    let root : Slot := { state := .opened, members := 1, root := some (recordKey 0 .mainsLost) }
    let closing : State := { clearing 1 { state := .opened, members := 1 } with
      directory := { yard.directory with profiles := yard.directory.profiles.map (fun p => { p with autoClose := true }) } }
    (StandsAt (atRecord 0 .mainsLost q) 0 .mainsLost q ∧ q.terms.clearTime ≤ q.timer + 1 ∧ q.incident = none) ∧
      (∀ p ∈ [(121, root), (121, { root with root := none }), (248, { root with absorbing := false }), (248, { root with absorbing := true }),
          (1, root)],
        let s := clearing p.1 p.2
        Table.wf s.faults = true ∧ s.tick.qualifier = some (recordKey 0 .mainsLost) ∧ recordOf s (recordKey 0 .mainsLost) = some (r p.1) ∧
          isHeld s (recordKey 0 .mainsLost) = false ∧ (r p.1).terms.clearTime ≤ (r p.1).timer + 1 ∧ slotOf s p.1 = p.2 ∧
          (assetProfile s 0).autoClose = false) ∧
      StandsAt closing 0 .mainsLost (r 1) ∧ (assetProfile closing 0).autoClose = true ∧
      (slotType 121 = .feeder ∧ slotCause 121 = 1 ∧ slotType 248 = .area ∧ slotType 1 = .outstation) ∧
      (0, cabinet) ∈ yard.directory.assets ∧ yard.directory.profiles[cabinet.settings.profile]? = some .cabinets ∧
      ∀ x ∈ yard.directory.assets, x.2.settings.kind = .cabinet → x.2.settings.feeder = 1 → x = (0, cabinet) :=
  ⟨⟨⟨by decide, by decide, by decide, by decide⟩, by decide, rfl⟩, by decide, ⟨by decide, by decide, by decide, by decide⟩, by decide,
    by decide, by decide, by decide, by decide⟩

theorem witness_EscalationRaisesPriority :
    let r := { recordIn .active .mainsLost with terms := termsOf .mainsLost { Profile.lamps with escalateAfter := 60 }, escTimer := 59 }
    StandsAt (atRecord 0 .mainsLost r) 0 .mainsLost r ∧ r.state = .active ∧ r.seen = false ∧ r.incident = none ∧ r.escalated = false ∧
      r.terms.escalateAfter ≠ 0 ∧ r.terms.escalateAfter ≤ min 65535 (r.escTimer + 1) :=
  ⟨⟨by decide, by decide, by decide, by decide⟩, rfl, rfl, rfl, rfl, by decide, by decide⟩

/-- Feeder 64, with one member. -/
theorem witness_ReleaseTimerRestoresSlot :
    let s : State := { yard with
      faults := [(recordKey 1 .circuitDark, { recordIn .active .circuitDark with incident := some (feederSlot 64) })]
      incidents := { slots := [(feederSlot 64, { state := .releasing, members := 1, release := 1 })] }
      tick := { release := [64] } }
    64 ∈ s.tick.release ∧ (slotOf s (feederSlot 64)).state = .releasing := by decide

/-- Area 64 with a calm window, open and absorbing without members. -/
theorem witness_StormWindowsRotate :
    let s : State := { yard with
      incidents := { slots := [(areaSlot 64, { state := .opened, absorbing := true })] }
      tick := { rotation := true } }
    s.tick.rotation = true ∧ (slotOf s (areaSlot 64)).state = .opened ∧ (slotOf s (areaSlot 64)).absorbing = true ∧
      (areaOf s 64).stormThreshold = 0 := by decide

theorem witness_SettlingEnds :
    let s : State := { yard with gate := { value := .night, settling := true, count := 1 }, tick := { gate := true } }
    s.tick.gate = true ∧ s.gate.settling = true ∧ s.gate.count = 1 := by decide

theorem witness_SaveCapturesAndEnds :
    let v : Saving := { count := 1, captured := {} }
    let s : State := { yard with store := { saving := some v }, tick := { save := true } }
    s.tick.save = true ∧ s.store.saving = some v ∧ v.count = 1 ∧
      Presents (asking (frameOf 0x78 []) yard) 0x78 (frameOf 0x78 []) ∧
      settled { yard with store := { saving := some v } } = true ∧ settled yard = true ∧ yard.store.saving = none :=
  ⟨rfl, rfl, rfl, presents_of_test (by decide), by decide, by decide, rfl⟩

/-! ## Witnesses: clock and gate -/

/-- One cycle short of the count, with 1/32768 s of the 2 s left and with less; the count reached; ON-CRYSTAL, and ON-INTERNAL; and the 2 s that end with the second in
progress. -/
theorem witness_ClockMonitorFollowsCrystal :
    let s (m : MonitorState) (n : Nat) : State := { yard with timebase := { monitor := m, goodCycles := n } }
    let e (n : Nat) : State := { yard with timebase := { goodCycles := 2047, elapsed := n } }
    settled (s .qualifying 2047) = true ∧ (s .qualifying 2047).timebase.goodCycles < 2048 ∧
      settled (e (qualifyingLimit - 1000000)) = true ∧ (e (qualifyingLimit - 1000000)).timebase.elapsed + 1000000 ≤ qualifyingLimit ∧
      (e (qualifyingLimit - 1)).timebase.elapsed < qualifyingLimit ∧ ¬ (e (qualifyingLimit - 1)).timebase.elapsed + 1000000 ≤ qualifyingLimit ∧
      settled (s .qualifying 2048) = true ∧ (s .qualifying 2048).timebase.goodCycles = 2048 ∧
      settled (s .onCrystal 0) = true ∧ (s .onCrystal 0).timebase.monitor = .onCrystal ∧ settled (s .onInternal 0) = true ∧
      qualifyingLimit - (e fullSecond).timebase.elapsed ≤ fullSecond - (e fullSecond).timebase.phase ∧
      97 * Config.nominalPeriod ≤ 100 * 970000 ∧ ¬ 97 * Config.nominalPeriod ≤ 100 * 969999 := by decide +kernel

/-- CLOCK-RETRY in ON-INTERNAL, and SET-TIME to 0 at the last run-second. -/
theorem witness_TimebaseRequests :
    Presents (asking (frameOf 0x21 []) { yard with timebase := { monitor := .onInternal } }) 0x21 (frameOf 0x21 []) ∧
    Presents (asking (frameOf 0x20 [0, 0, 0, 0]) { yard with timebase := { runSecond := 4294967295 } }) 0x20 (frameOf 0x20 [0, 0, 0, 0]) :=
  ⟨presents_of_test (by decide), presents_of_test (by decide)⟩

/-- NIGHT; 2, which is refused; an empty body; and source CONSOLE. -/
theorem witness_SetDaylightSetsGate : Presents (asking (frameOf 0x23 [1]) yard) 0x23 (frameOf 0x23 [1]) ∧
    Presents (asking (frameOf 0x23 [2]) yard) 0x23 (frameOf 0x23 [2]) ∧
    (let s := asking (frameOf 0x23 []) yard
     settled s = true ∧ s.link.requests.head? = some (frameOf 0x23 []) ∧ (frameOf 0x23 []).kind.toNat = 0x23 ∧ mayServe s = true ∧
       (frameOf 0x23 []).body.length ≠ 1) ∧ yard.gate.source = .console :=
  ⟨presents_of_test (by decide), presents_of_test (by decide), by decide, rfl⟩

/-- The console, and point 63 of outstation 120 with the longest settle time. -/
theorem witness_SetDaylightSourceReplacesSource :
    let f := frameOf 0x22 [0, 0, 0, 0, 0]
    let g := frameOf 0x22 [1, 120, 63, 14, 16]
    Presents (asking f yard) 0x22 f ∧ u8 f.body 0 = 0 ∧ u8 f.body 1 = 0 ∧ u8 f.body 2 = 0 ∧
      Presents (asking g yard) 0x22 g ∧ u16 g.body 3 = 3600 ∧ u8 g.body 0 = 1 ∧ u8 g.body 1 = 120 ∧ u8 g.body 2 = 63 ∧
      (stationOf (asking g yard) 120).isSome = true :=
  ⟨presents_of_test (by decide), rfl, rfl, rfl, presents_of_test (by decide), by decide, rfl, rfl, rfl, rfl⟩

/-! ## Witnesses: field lines -/

/-- A line that waits out its guard of 4 bit times, so that 3, 4, 63 and 64 end before the poll, at its start, within it and with it; a poll one bit time
before its end; and a STOPPED line. -/
theorem witness_PollIsDrivenAfterGuard :
    let s : State := { yard with lines := { a := { state := .polling, visit := some visit1 } } }
    let poll := pollFrame visit1 station1
    let t : State := { yard with lines := { a := { state := .polling, visit := some visit1, exchange := .sending poll 59, driverEnable := true } } }
    settled s = true ∧ (lineOf s .a).state = .polling ∧ (lineOf s .a).exchange = .guardWait ∧ (lineOf s .a).visit = some visit1 ∧
      stationOf s visit1.station = some station1 ∧ (lineOf s .a).quiet + 3 < (lineOf s .a).settings.guard ∧
      ¬ (lineOf s .a).quiet + 4 < (lineOf s .a).settings.guard ∧ 63 - ((lineOf s .a).settings.guard - (lineOf s .a).quiet) < 60 ∧
      ¬ 64 - ((lineOf s .a).settings.guard - (lineOf s .a).quiet) < 60 ∧
      settled t = true ∧ (lineOf t .a).state = .polling ∧ (lineOf t .a).exchange = .sending poll 59 ∧ 10 * poll.length = 60 ∧
      settled yard = true ∧ (lineOf yard .a).state ≠ .polling ∧ (lineOf yard .a).exchange = .guardWait :=
  ⟨by decide, rfl, rfl, rfl, rfl, by decide, by decide, by decide, by decide, by decide +kernel, rfl, rfl, by decide +kernel, by decide,
    by decide, rfl⟩

/-- A reply that lacks characters, one whose length character is 241, a poll being sent, and a line that awaits none. -/
theorem witness_FieldCharacterIsReceived :
    let t : State := { yard with lines := { a := { state := .polling, visit := some visit1, exchange := .sending [] 0 } } }
    settled (polling visit1 []) = true ∧ (lineOf (polling visit1 []) .a).state = .polling ∧
      (lineOf (polling visit1 []) .a).exchange = .reply [] ∧ replyHeld [] = false ∧ replyTooLong [] = false ∧
      replyTooLong (bytesOf [195, 1, 2, 241]) = true ∧ replyTooLong (bytesOf [195, 1, 2, 240]) = false ∧
      settled t = true ∧ (lineOf t .a).exchange = .sending [] 0 ∧ (lineOf (polling visit1 []) .b).state ≠ .polling := by decide

/-- The last attempt but one: no character, too few, and a whole reply with a wrong CRC. -/
theorem witness_FailedAttemptIsRetried :
    let v := { visit1 with attempt := 2 }
    let wrong := bytesOf [195, 1, 3, 0, 0, 0]
    Awaits (polling v []) .a [] v station1 ∧ v.attempt ≤ (lineOf (polling v []) .a).settings.retries ∧
      Awaits (polling v [195#8]) .a [195#8] v station1 ∧ replyHeld [195#8] = false ∧
      Awaits (polling v wrong) .a wrong v station1 ∧ replyHeld wrong = true ∧ replyCrcGood wrong = false :=
  ⟨⟨by decide, rfl, rfl, rfl, rfl⟩, by decide, ⟨by decide, rfl, rfl, rfl, rfl⟩, by decide, ⟨by decide, rfl, rfl, rfl, rfl⟩, by decide,
    by decide +kernel⟩

/-- The last attempt of a visit, at a failure count one short of the threshold; with an ACTIVE record to gather, and a QUALIFYING one. -/
theorem witness_SilenceOpensIncident :
    let v := { visit1 with attempt := 3 }
    let st := { station1 with failures := 2 }
    let s : State := { polling v [] with
      directory := { yard.directory with stations := [(1, st)] }
      gate := { source := .point 1 0, value := .day }
      faults := [(recordKey 0 .mainsLost, recordIn .active .mainsLost), (recordKey 1 .circuitDark, recordIn .qualifying .circuitDark)] }
    Awaits s .a [] v st ∧ Table.wf s.faults = true ∧ (lineOf s .a).settings.retries < v.attempt ∧ v.decided = false ∧ st.state ≠ .silent ∧
      st.failures < 15 ∧ (lineOf s .a).settings.silence ≤ st.failures + 1 ∧ s.gate.source = .point v.station 0 ∧
      stationCandidates s 1 = [recordKey 0 .mainsLost] :=
  ⟨⟨by decide, rfl, rfl, rfl, rfl⟩, by decide, by decide, rfl, by decide, by decide, by decide, rfl, by decide⟩

/-- A REPORT of one entry from outstation 1, with its toggle; a SNAPSHOT block with MORE; and NOTHING. -/
def reportChars (toggle : Bool) : List Byte := fieldFrame 1 (encControl .report toggle false) (bytesOf [0, 1, 0, 1])

def snapshotChars : List Byte := fieldFrame 1 (encControl .snapshot true true) (bytesOf [0, 1, 0, 1])

def nothingChars : List Byte := fieldFrame 1 (encControl .nothing false false) []

/-- A new toggle; a snapshot block that leaves room for one more, and the fourth; the last accepted toggle again, and NOTHING; and the reply of a SILENT
outstation with a member of its incident. -/
theorem witness_ReportIsAcceptedOnce :
    let snap (n : Nat) : Visit := { visit1 with kind := .snapshot, accepted := n, snapshots := n, decided := true }
    let gone : State := { polling visit1 (reportChars true) with
      directory := { yard.directory with stations := [(1, { station1 with state := .silent })] }
      faults := [(recordKey 0 .mainsLost, { recordIn .active .mainsLost with incident := some 1 })]
      incidents := { slots := [(1, { state := .opened, members := 1 })] } }
    (Awaits (polling visit1 (reportChars true)) .a (reportChars true) visit1 station1 ∧ replyHeld (reportChars true) = true ∧
      visit1.decided = false ∧ station1.state ≠ .silent ∧
      judgeReply visit1 1 (reportChars true) = .report [⟨0, .digital 0 1⟩] (!station1.toggle) false ∧
      reservedIndex (polling visit1 (reportChars true)).intake.slots .a = some 0) ∧
      (∀ n ∈ [2, 3], Awaits (polling (snap n) snapshotChars) .a snapshotChars (snap n) station1 ∧
        judgeReply (snap n) 1 snapshotChars = .snapshot [⟨0, .digital 0 1⟩] true true) ∧
      replyHeld snapshotChars = true ∧ reservedIndex (polling (snap 3) snapshotChars).intake.slots .a = some 0 ∧
      (Awaits (polling visit1 (reportChars false)) .a (reportChars false) visit1 station1 ∧ replyHeld (reportChars false) = true ∧
        judgeReply visit1 1 (reportChars false) = .report [⟨0, .digital 0 1⟩] station1.toggle false) ∧
      (Awaits (polling visit1 nothingChars) .a nothingChars visit1 station1 ∧ replyHeld nothingChars = true ∧
        judgeReply visit1 1 nothingChars = .nothing) ∧
      Awaits gone .a (reportChars true) visit1 { station1 with state := .silent } ∧ Table.wf gone.faults = true :=
  ⟨⟨⟨by decide, rfl, rfl, rfl, rfl⟩, by decide +kernel, rfl, by decide, by decide +kernel, by decide +kernel⟩,
    fun n hn => ⟨⟨by revert n; decide, rfl, rfl, rfl, rfl⟩, by revert n; decide +kernel⟩, by decide +kernel, by decide +kernel,
    ⟨⟨by decide, rfl, rfl, rfl, rfl⟩, by decide +kernel, by decide +kernel⟩,
    ⟨⟨by decide, rfl, rfl, rfl, rfl⟩, by decide +kernel, by decide +kernel⟩, ⟨by decide, rfl, rfl, rfl, rfl⟩, by decide⟩

/-- A RESTING line at the tick that ends its interval; a SINGLE line past its last outstation; START-LINE of line D, which has no outstation, of a line that runs,
and of no line. -/
theorem witness_SweepStarts :
    let s : State := { yard with lines := { a := { state := .resting, interval := 1 } }, tick := { lines := [.a] } }
    let u : State := { yard with lines := { a := { state := .polling, sweepPos := 1, settings := { mode := .single } } } }
    (lineOf s .a).list = [] ∧ (lineOf s .a).settings.mode = .continuous ∧ .a ∈ s.tick.lines ∧ (lineOf s .a).state = .resting ∧
      (lineOf s .a).interval ≤ 1 ∧
      (lineOf u .a).list = [] ∧ (lineOf u .a).between = false ∧ (lineOf u .a).settings.mode = .single ∧
      (∀ e ∈ u.directory.stations, e.2.settings.line = .a → e.2.settings.enabled = true → e.2.settings.address ≤ (lineOf u .a).sweepPos) ∧
      (lineOf yard .d).state = .stopped ∧
      Presents (asking (frameOf 0x31 [3]) yard) 0x31 (frameOf 0x31 [3]) ∧ decEnum fieldLines (u8 (frameOf 0x31 [3]).body 0) = some .d ∧
      Presents (asking (frameOf 0x31 [0]) u) 0x31 (frameOf 0x31 [0]) ∧ (lineOf u .a).state ≠ .stopped ∧
      Presents (asking (frameOf 0x31 [4]) yard) 0x31 (frameOf 0x31 [4]) :=
  ⟨rfl, rfl, by decide, rfl, by decide, rfl, rfl, rfl, by decide, rfl, presents_of_test (by decide), rfl, presents_of_test (by decide),
    by decide, presents_of_test (by decide)⟩

/-- A line in a visit with its slot reserved, one with a poll half sent, and a STOPPED one. -/
theorem witness_StopLineStops :
    let t : State := { yard with lines := { a := { state := .polling, visit := some visit1, exchange := .sending [] 30, driverEnable := true } } }
    Presents (asking (frameOf 0x32 [0]) (polling visit1 [])) 0x32 (frameOf 0x32 [0]) ∧
      decEnum fieldLines (u8 (frameOf 0x32 [0]).body 0) = some .a ∧ (lineOf (polling visit1 []) .a).state ≠ .stopped ∧
      (polling visit1 []).intake.slots[0]? = some (.reserved .a) ∧
      Presents (asking (frameOf 0x32 [0]) t) 0x32 (frameOf 0x32 [0]) ∧ (lineOf t .a).driverEnable = true ∧
      Presents (asking (frameOf 0x32 [3]) yard) 0x32 (frameOf 0x32 [3]) ∧
      decEnum fieldLines (u8 (frameOf 0x32 [3]).body 0) = some .d ∧ (lineOf yard .d).state = .stopped :=
  ⟨presents_of_test (by decide), rfl, by decide, rfl, presents_of_test (by decide), rfl, presents_of_test (by decide), rfl, rfl⟩

/-- The largest and the smallest settings, for a STOPPED line; the second for a line that is not. -/
theorem witness_LineSettingsAreReplaced :
    let f := frameOf 0x30 [3, 5, 7, 208, 31, 7, 15, 2, 88, 1, 1]
    let g := frameOf 0x30 [0, 0, 0, 20, 0, 0, 1, 0, 0, 0, 0]
    let m := frameOf 0x33 [3, 1]
    Presents (asking f yard) 0x30 f ∧ u16 f.body 2 = 2000 ∧ u8 f.body 4 = 31 ∧ u8 f.body 5 = 7 ∧ u8 f.body 6 = 15 ∧ u16 f.body 7 = 600 ∧
      decEnum fieldLines (u8 f.body 0) = some .d ∧ decEnum bitRates (u8 f.body 1) = some .b38400 ∧
      decEnum sweepModes (u8 f.body 9) = some .single ∧ decEnum booleans (u8 f.body 10) = some true ∧ (lineOf yard .d).state = .stopped ∧
      Presents (asking g (polling visit1 [])) 0x30 g ∧ decEnum fieldLines (u8 g.body 0) = some .a ∧ u16 g.body 2 = 20 ∧ u8 g.body 6 = 1 ∧
      decEnum bitRates (u8 g.body 1) = some .b1200 ∧ decEnum sweepModes (u8 g.body 9) = some .continuous ∧
      decEnum booleans (u8 g.body 10) = some false ∧ (lineOf (polling visit1 []) .a).state ≠ .stopped ∧
      Presents (asking m yard) 0x33 m ∧ decEnum fieldLines (u8 m.body 0) = some .d ∧ decEnum sweepModes (u8 m.body 1) = some .single :=
  ⟨presents_of_test (by decide), by decide, rfl, rfl, rfl, by decide, rfl, rfl, rfl, rfl, rfl, presents_of_test (by decide), rfl,
    by decide, rfl, rfl, rfl, rfl, by decide, presents_of_test (by decide), rfl, rfl⟩

/-- Outstation 1 on a line in a visit, on which it is listed or not, with room or not; on a RESTING line, with a free slot and with none; on a STOPPED line; and
disabled. Outstations 2 and 120, which are not defined; and the numbers 0 and 121. -/
theorem witness_InterrogateJoinsList :
    let f := frameOf 0x34 [1]
    let on (st : LineState) (list : List Nat) : State := { yard with lines := { a := { state := st, list } } }
    let full (s : State) : State := { s with intake := { slots := List.replicate 8 (.reserved .b) } }
    let off : State := { on .polling [] with directory := { stations := [(1, { station1 with settings := { station1.settings with enabled := false } })] } }
    let lone : State := { yard with directory := { stations := [(1, station1)] } }
    (∀ s ∈ [on .polling [], on .polling [1], on .polling [2, 3, 4], on .polling [2, 3, 4, 5], on .resting [], full (on .resting [2]), yard],
      presentsTest (asking f s) 0x34 f = true ∧ stationOf s 1 = some station1) ∧
      u8 f.body 0 = 1 ∧ station1.settings.enabled = true ∧ (lineOf yard .a).state = .stopped ∧
      presentsTest (asking f off) 0x34 f = true ∧ (stationOf off 1).map (fun st => st.settings.enabled) = some false ∧
      (∀ n ∈ [0, 2, 120, 121], presentsTest (asking (frameOf 0x34 [n]) lone) 0x34 (frameOf 0x34 [n]) = true ∧ stationOf lone n = none) := by
  decide +kernel

/-! ## Witnesses: intake, Decoder, classifier -/

theorem witness_GrantServesHeadOfWaitList :
    let s : State := { yard with
      lines := { b := { state := .awaitSlot, visit := some visit1 } }
      intake := { slots := [.reserved .a, .free, .reserved .c, .reserved .c, .reserved .c, .reserved .c, .reserved .c, .reserved .c]
                  waiting := [.b] } }
    s.intake.waiting = [.b] ∧ .free ∈ s.intake.slots := by decide

/-- An IDLE Decoder with a block to take; one at the first of two entries, and one at the last entry of a block of a SILENT outstation. -/
theorem witness_DecoderTakesBlocksInOrder :
    let es : List Entry := [⟨0, .digital 0 0⟩, ⟨1, .analogue 0⟩]
    let b : Block := { line := .a, station := 1, snapshot := false, entries := es, arrival := 0 }
    let st := { station1 with state := .silent }
    let s : State := { decoding es with
      directory := { stations := [(1, st)] }, intake := { (decoding es).intake with decoder := .decoding 0 1 } }
    let i : State := { decoding es with intake := { (decoding es).intake with decoder := .idle, order := [0] } }
    i.tick = {} ∧ grantDue i.intake = false ∧ i.intake.decoder = .idle ∧ i.intake.order = [0] ∧
      settled (decoding es) = true ∧ (decoding es).intake.decoder = .decoding 0 0 ∧ 0 + 1 < b.entries.length ∧
      settled s = true ∧ s.intake.decoder = .decoding 0 1 ∧ s.intake.slots[0]? = some (.filled b) ∧ 1 < b.entries.length ∧
      ¬ 1 + 1 < b.entries.length ∧ stationOf s b.station = some st ∧ st.state = .silent := by decide

/-- A LOOP and a SIGN of outstation 1, and the outstation with a point for each role. -/
def loop : Asset := { settings := {
  kind := .loop, station := 1, points := { main := some 2, aux := none, door := none, supply := none, detect := some 3 }
  profile := 1, priority := 2, area := 0, feeder := 0, lampCount := 0, doubling := true, label := [] } }

def sign : Asset := { settings := {
  kind := .sign, station := 1, points := { main := some 4, aux := some 5, door := some 63, supply := none, detect := none }
  profile := 2, priority := 2, area := 0, feeder := 0, lampCount := 0, doubling := false, label := [] } }

def allRoles : Station := { station1 with pointMap :=
  [(0, 0, .supply), (1, 1, .main), (2, 2, .main), (3, 2, .detect), (4, 3, .main), (5, 3, .aux), (63, 3, .door)] }

/-- The Decoder at one entry, with an asset of each kind. -/
def applying (e : Entry) : State := { decoding [e] with directory :=
  { stations := [(1, allRoles)], assets := [(0, cabinet), (1, circuit), (2, loop), (3, sign)] } }

/-- An entry for each role, and for the MAIN role of each kind that has one; and the loss of the supply, with no record yet. -/
theorem witness_EntriesReachRecords :
    (∀ p ∈ [((⟨0, .digital 1 0⟩ : Entry), 0, Role.supply, cabinet), (⟨63, .digital 1 255⟩, 3, .door, sign),
        (⟨3, .digital 0 255⟩, 2, .detect, loop), (⟨5, .analogue 65535⟩, 3, .aux, sign), (⟨1, .analogue 0⟩, 1, .main, circuit),
        (⟨2, .analogue 65535⟩, 2, .main, loop), (⟨4, .analogue 1⟩, 3, .main, sign)],
      let s := applying p.1
      settled s = true ∧ s.intake.decoder = .decoding 0 0 ∧
        s.intake.slots[0]? = some (.filled { line := .a, station := 1, snapshot := false, entries := [p.1], arrival := 0 }) ∧
        stationOf s 1 = some allRoles ∧ s.gate.source ≠ .point 1 p.1.point ∧
        Table.find allRoles.pointMap p.1.point = some (p.2.1, p.2.2.1) ∧ assetOf s p.2.1 = some p.2.2.2) ∧
    allRoles.state ≠ .silent ∧
    (let e : Entry := { point := 0, data := .digital 0 255 }
     let b : Block := { line := .a, station := 1, snapshot := false, entries := [e], arrival := 0 }
     let s := decoding [e]
     settled s = true ∧ s.intake.decoder = .decoding 0 0 ∧ s.intake.slots[0]? = some (.filled b) ∧ b.entries[0]? = some e ∧
      stationOf s b.station = some station1 ∧ station1.state ≠ .silent ∧ s.gate.source ≠ .point b.station 0 ∧
      Table.find station1.pointMap 0 = some (0, .supply) ∧ (assetOf s 0).map (fun x => x.settings.station) = some b.station ∧
      recordOf s (recordKey 0 .mainsLost) = none ∧ s.faults.length < 1024 ∧ (assetProfile s 0).confirmFail = 20) := by decide

/-- 1024 records of assets 1 to 1024, and none of asset 0. -/
def fullTable : State :=
  { yard with faults := (List.range 1024).map (fun n => (recordKey (n + 1) .mainsLost, recordIn .active .mainsLost)) }

/-- A full table; a held observation; an unheld record in each state, a COUNT record one short of its count among them; and a new record, or a RESTORED one,
under a confirm term and under a count of 20. -/
theorem witness_ObservationsMoveRecords :
    let one (c : Condition) (r : Record) : State := { yard with faults := [(recordKey 1 c, r)] }
    let chatter := { recordIn .qualifying .loopChatter with evidence := 19, windowLeft := some 1 }
    heldBy fullTable 0 .mainsLost = .notHeld ∧ recordOf fullTable (recordKey 0 .mainsLost) = none ∧ fullTable.faults.length = 1024 ∧
      heldBy yard 1 .circuitDark ≠ .notHeld ∧
      (∀ st ∈ recordStates, heldBy (one .doorOpen (recordIn st .doorOpen)) 1 .doorOpen = .notHeld ∧
        recordOf (one .doorOpen (recordIn st .doorOpen)) (recordKey 1 .doorOpen) = some (recordIn st .doorOpen)) ∧
      (recordIn .qualifying .doorOpen).incident = none ∧ (recordIn .qualifying .doorOpen).terms.confirm = .time 120 ∧
      heldBy (one .loopChatter chatter) 1 .loopChatter = .notHeld ∧
      recordOf (one .loopChatter chatter) (recordKey 1 .loopChatter) = some chatter ∧ chatter.terms.confirm = .count 20 600 ∧
      min 65535 (chatter.evidence + 0) < 20 ∧ 20 ≤ min 65535 (chatter.evidence + 1) ∧
      (∀ c ∈ [Condition.doorOpen, .loopChatter], heldBy yard 1 c = .notHeld ∧ recordOf yard (recordKey 1 c) = none) ∧ yard.faults.length < 1024 ∧
      (termsOf .doorOpen (assetProfile yard 1)).confirm = .time 120 ∧ (termsOf .loopChatter (assetProfile yard 1)).confirm = .count 20 600 ∧
      heldBy (one .loopChatter (recordIn .restored .loopChatter)) 1 .loopChatter = .notHeld ∧
      recordOf (one .loopChatter (recordIn .restored .loopChatter)) (recordKey 1 .loopChatter) = some (recordIn .restored .loopChatter) := by
  decide +kernel

/-- Point 63, unmapped, with the gate elsewhere, and as the daylight point with either form; and an ANALOGUE entry for the SUPPLY point. -/
theorem witness_EntryReachesGateOrIsUnmapped :
    let d : Entry := { point := 63, data := .digital 1 0 }
    let m : Entry := { point := 0, data := .analogue 7 }
    let g (e : Entry) : State := { decoding [e] with gate := { source := .point 1 63 } }
    (∀ e ∈ [d, { d with data := .analogue 7 }, m], settled (g e) = true ∧ (g e).intake.decoder = .decoding 0 0 ∧
      (g e).intake.slots[0]? = some (.filled { line := .a, station := 1, snapshot := false, entries := [e], arrival := 0 }) ∧
      stationOf (g e) 1 = some station1) ∧ station1.state ≠ .silent ∧
      (∀ a role, Table.find station1.pointMap d.point = some (a, role) → formMatches role d.data = false) ∧
      (∀ a role, Table.find station1.pointMap m.point = some (a, role) → formMatches role m.data = false) ∧
      settled (decoding [d]) = true ∧ (decoding [d]).gate.source ≠ .point 1 d.point ∧ (g d).gate.source = .point 1 d.point := by
  refine ⟨by decide, by decide, fun a role h => ?_, fun a role h => ?_, by decide, by decide, rfl⟩
  · exact absurd (show none = some (a, role) from h) (by simp)
  · have h' : some (0, Role.supply) = some (a, role) := h
    cases h'
    rfl

/-- Learned, in NORMAL above, below and at the reference; in each other band; at either end of the deviation; and an estimate at half a lamp. -/
theorem witness_JudgedReadingMovesReference :
    (∀ x ∈ [1001, 999, 1000], (judge .lamps 1000 x).band = .normal) ∧ (judge .lamps 1000 960).band = .low ∧ (judge .lamps 1000 0).band = .failLow ∧
      (judge .lamps 1000 3000).band = .failHigh ∧ (judge { Profile.lamps with high := 1000 } 1000 1100).band = .high ∧
      (judge .lamps 1 65535).deviation = 32767 ∧ (judge .lamps 1000 0).deviation = -10000 ∧ lampsEstimate .low (-500) 10 = 1 := by decide

/-! ## Witnesses: the console link -/

/-- A frame of kind 0x60 and tag 7 with its CRC, and the same with a wrong last character. -/
def peekChars : List Byte := frameChars (frameOf 0x60 [])

/-- HUNT; within a frame, at its second length byte; complete with a good and with a wrong CRC, with one frame waiting and with two; and
incomplete. -/
theorem witness_ConsoleFramesAreReceived :
    let s (rx : Option (List Byte)) (n : Nat) : State := { yard with link := { receiver := rx, requests := List.replicate n (frameOf 0x60 []) } }
    let bad := peekChars.dropLast ++ [0#8]
    settled (s none 0) = true ∧ (s none 0).link.receiver = none ∧ rxComplete (bytesOf [166, 3]) = false ∧
      ¬ 1000 < u16 (bytesOf [166, 3] ++ [232#8]) 1 ∧ 1000 < u16 (bytesOf [166, 3] ++ [233#8]) 1 ∧
      settled (s (some peekChars) 2) = true ∧ rxComplete peekChars = true ∧ rxGood peekChars = true ∧
      (s (some peekChars) 1).link.requests.length < 2 ∧ ¬ (s (some peekChars) 2).link.requests.length < 2 ∧
      rxComplete bad = true ∧ rxGood bad = false := by decide +kernel

/-- The longest body and the shortest; a frame being sent, at its first character and after its last; and an idle transmitter. -/
theorem witness_ConsoleFrameRoundTrip : (frameOf 0x12 (List.replicate 1000 255)).body.length ≤ 1000 ∧
    (frameOf 0x60 []).body.length ≤ 1000 ∧
    (sendingChars (.notice (frameOf 0x60 []) (frameChars (frameOf 0x60 []))))[0]? = some 0xA6#8 ∧
    10 * (sendingChars (.notice (frameOf 0x60 []) (frameChars (frameOf 0x60 [])))).length ≤ 70 := by decide +kernel

theorem witness_FieldFrameRoundTrip : (255 : Nat) < 256 ∧ (bytesOf (List.replicate 240 255)).length ≤ 240 ∧
    (bytesOf []).length ≤ 240 := by decide +kernel

/-- A notice of an empty queue, and one of a head; and a reply and a notice being sent. -/
theorem witness_TransmitterSendsAndFinishes :
    let x : Summary := { item := { thing := .incident 1, reason := .new, rankClass := 2, orderTime := 0 }, detail := .incident .outstation 0 }
    let s (n : Option Summary) : State := { yard with dispatch := { notices := true, notice := some n } }
    let t (x : Transmitter) : State := { yard with link := { requests := [frameOf 0x60 []], transmitter := x } }
    settled (s none) = true ∧ (s none).dispatch.notice = some none ∧ (s none).link.transmitter = .idle ∧ (s none).link.after = .nothing ∧
      settled (s (some x)) = true ∧ (s (some x)).dispatch.notice = some (some x) ∧
      settled (t (.reply (frameOf 0x60 [0]) [] .nothing)) = true ∧ settled (t (.notice (frameOf 0x7F [0]) [])) = true := by decide

/-- The rate in force, another rate, and the switch with half a frame received. -/
theorem witness_ConsoleRateChangesAfterReply :
    let s : State := { yard with link := { rate := .c9600, after := .rateSwitch, receiver := some [166#8] } }
    Presents (asking (frameOf 0x71 [4]) yard) 0x71 (frameOf 0x71 [4]) ∧
      decEnum consoleRates (u8 (frameOf 0x71 [4]).body 0) = some yard.link.rate ∧
      Presents (asking (frameOf 0x71 [5]) yard) 0x71 (frameOf 0x71 [5]) ∧
      decEnum consoleRates (u8 (frameOf 0x71 [5]).body 0) = some .c230400 ∧
      settled s = true ∧ s.link.after = .rateSwitch ∧ rxComplete [166#8] = false :=
  ⟨presents_of_test (by decide), rfl, presents_of_test (by decide), rfl, by decide, rfl, by decide⟩

/-- A request that is refused, and a kind that is none. -/
theorem witness_RefusedRequestChangesNothing :
    (Instr.clockRetry, 0x21) ∈ requestCommands ∧ Presents (asking (frameOf 0x21 []) yard) 0x21 (frameOf 0x21 []) ∧
      (let s := asking (frameOf 0x16 []) yard
       settled s = true ∧ s.link.requests.head? = some (frameOf 0x16 []) ∧ requestKind (frameOf 0x16 []).kind.toNat = none ∧
         mayServe s = true) := ⟨by decide, presents_of_test (by decide), by decide⟩

/-- A body one byte too long, a save in progress, and a sending transmitter. -/
theorem witness_RequestsAreServedInTurn :
    let f := frameOf 0x78 [0]
    let g := frameOf 0x78 []
    let s : State := { asking g yard with store := { saving := some { count := 5, captured := {} } } }
    let b : State := { yard with link := { transmitter := .notice g [] } }
    (Instr.saveSettings, 0x78) ∈ requestCommands ∧ settled (asking f yard) = true ∧ (asking f yard).link.requests.head? = some f ∧
      f.kind.toNat = 0x78 ∧ mayServe (asking f yard) = true ∧ requestKind 0x78 = some ⟨0x78, 0, true⟩ ∧ f.body.length ≠ 0 ∧
      settled s = true ∧ s.link.requests.head? = some g ∧ g.kind.toNat = 0x78 ∧ mayServe s = true ∧ g.body.length = 0 ∧
      s.store.saving.isSome = true ∧ settled b = true ∧ b.link.transmitter ≠ .idle := by decide

/-- The yard with a record of asset 0. -/
def recorded : State := { yard with faults := [(recordKey 0 .mainsLost, recordIn .active .mainsLost)] }

/-- Each read, at the ends of its ranges. -/
theorem witness_ReadsChangeNothing :
    Presents (asking (frameOf 0x19 [0, 0]) yard) 0x19 (frameOf 0x19 [0, 0]) ∧ (assetOf yard 0).isSome = true ∧
    Presents (asking (frameOf 0x1A [15]) yard) 0x1A (frameOf 0x1A [15]) ∧
    Presents (asking (frameOf 0x50 [0, 0, 1]) recorded) 0x50 (frameOf 0x50 [0, 0, 1]) ∧ (recordOf recorded (0 * 16 + 1)).isSome = true ∧
    Presents (asking (frameOf 0x51 [15, 255, 13, 15, 15]) recorded) 0x51 (frameOf 0x51 [15, 255, 13, 15, 15]) ∧
    Presents (asking (frameOf 0x58 [248, 15, 255, 13]) yard) 0x58 (frameOf 0x58 [248, 15, 255, 13]) ∧
    Presents (asking (frameOf 0x59 [248, 14]) yard) 0x59 (frameOf 0x59 [248, 14]) ∧
    Presents (asking (frameOf 0x60 []) yard) 0x60 (frameOf 0x60 []) ∧
    Presents (asking (frameOf 0x61 [192]) yard) 0x61 (frameOf 0x61 [192]) :=
  ⟨presents_of_test (by decide), rfl, presents_of_test (by decide), presents_of_test (by decide), by decide, presents_of_test (by decide),
    presents_of_test (by decide), presents_of_test (by decide), presents_of_test (by decide), presents_of_test (by decide)⟩

theorem witness_ReadStatusClearsFlags :
    let s : State := { yard with link := { flags := { overrun := true, unmapped := true } } }
    Presents (asking (frameOf 0x70 []) s) 0x70 (frameOf 0x70 []) := presents_of_test (by decide)

/-! ## Witnesses: the directory -/

/-- Slot 120 undefined, with the highest address and class; a SILENT outstation that moves to another address, and one that stays; and an outstation with an empty
point map. -/
theorem witness_StationsAreDefinedAndRemoved :
    let f := frameOf 0x10 [120, 3, 30, 4, 1]
    let v : StationSettings := { line := .d, address := 30, priority := 4, enabled := true }
    let s := asking f State.reset
    let gone := { station1 with state := .silent }
    let m (n : Nat) : Frame := frameOf 0x10 [1, 0, n, 1, 0]
    let w (n : Nat) : StationSettings := { line := .a, address := n, priority := 1, enabled := false }
    let t (n : Nat) : State := asking (m n) { yard with directory := { stations := [(1, gone)] } }
    let g := frameOf 0x11 [120]
    (Presents s 0x10 f ∧ u8 f.body 0 = 120 ∧ decEnum fieldLines (u8 f.body 1) = some v.line ∧ u8 f.body 2 = v.address ∧
      u8 f.body 3 = v.priority ∧ decEnum booleans (u8 f.body 4) = some v.enabled ∧ (lineOf s v.line).state = .stopped ∧
      stationOf s (u8 f.body 0) = none ∧
      ∀ e ∈ s.directory.stations, e.1 ≠ u8 f.body 0 → e.2.settings.line = v.line → e.2.settings.address ≠ v.address) ∧
      (∀ n ∈ [1, 2], presentsTest (t n) 0x10 (m n) = true ∧ u8 (m n).body 0 = 1 ∧ decEnum fieldLines (u8 (m n).body 1) = some (w n).line ∧
        u8 (m n).body 2 = (w n).address ∧ u8 (m n).body 3 = (w n).priority ∧ decEnum booleans (u8 (m n).body 4) = some (w n).enabled ∧
        stationOf (t n) 1 = some gone ∧
        ∀ e ∈ (t n).directory.stations, e.1 ≠ 1 → e.2.settings.line = (w n).line → e.2.settings.address ≠ (w n).address) ∧
      (lineOf (t 1) .a).state = .stopped ∧ Table.wf (t 1).faults = true ∧ (w 1).address = gone.settings.address ∧
      Presents (asking g yard) 0x11 g ∧ stationOf (asking g yard) (u8 g.body 0) = some station120 ∧
      (lineOf (asking g yard) station120.settings.line).state = .stopped ∧ station120.pointMap = [] ∧
      ∀ p, (asking g yard).gate.source ≠ .point (u8 g.body 0) p :=
  ⟨⟨presents_of_test (by decide), rfl, rfl, rfl, rfl, rfl, rfl, rfl, by decide⟩, by decide, rfl, rfl, rfl, presents_of_test (by decide), rfl,
    rfl, rfl, fun p h => (nomatch h)⟩

/-- DEFINE-ASSET of a kind, on role points (MAIN, AUX, DOOR, SUPPLY, DETECT) of outstation 120 or 1, with profile, class, area, feeder, lamp count, doubling and
label. -/
def assetFrame (a kind station : Nat) (rest label : List Nat) : Frame :=
  frameOf 0x12 ([a / 256, a % 256, kind, station] ++ rest ++ [label.length] ++ label ++ List.replicate (12 - label.length) 0)

/-- Settings for the frames: a loop as asset 4095 on point 63, a cabinet of feeder 64, a circuit of 60 lamps over asset 1, a sign with the longest
label. -/
def loopSettings : AssetSettings :=
  { kind := .loop, station := 120, points := { main := some 63, aux := none, door := none, supply := none, detect := some 0 }
    profile := 15, priority := 4, area := 64, feeder := 0, lampCount := 0, doubling := true, label := [] }

def cabinetSettings : AssetSettings :=
  { kind := .cabinet, station := 120, points := { main := none, aux := none, door := some 63, supply := some 0, detect := none }
    profile := 0, priority := 1, area := 0, feeder := 64, lampCount := 0, doubling := false, label := [0x20#8] }

def circuitSettings : AssetSettings :=
  { kind := .lampCircuit, station := 1, points := { main := some 1, aux := none, door := none, supply := none, detect := none }
    profile := 0, priority := 2, area := 64, feeder := 1, lampCount := 60, doubling := false, label := [] }

def signSettings : AssetSettings :=
  { kind := .sign, station := 1, points := { main := some 2, aux := some 63, door := none, supply := none, detect := none }
    profile := 0, priority := 2, area := 64, feeder := 0, lampCount := 0, doubling := false, label := List.replicate 12 0x7E#8 }

/-- The fields of a DEFINE-ASSET frame, in order. -/
def assetFields (f : Frame) : List Nat := (List.range 14).map (fun k => u8 f.body (k + 2))

/-- Each kind defined, the circuit over the asset that holds its point, the others anew; and the cabinet removed. -/
theorem witness_AssetsAreDefinedAndRemoved :
    let g := frameOf 0x13 [0, 0]
    (∀ p ∈ [(assetFrame 4095 2 120 [63, 255, 255, 255, 0, 15, 4, 64, 0, 0, 1] [], 4095, loopSettings, station120),
        (assetFrame 2 0 120 [255, 255, 63, 0, 255, 0, 1, 0, 64, 0, 0] [32], 2, cabinetSettings, station120),
        (assetFrame 1 1 1 [1, 255, 255, 255, 255, 0, 2, 64, 1, 60, 0] [], 1, circuitSettings, station1),
        (assetFrame 3 3 1 [2, 63, 255, 255, 255, 0, 2, 64, 0, 0, 0] (List.replicate 12 126), 3, signSettings, station1)],
      let f := p.1
      let v := p.2.2.1
      let st := p.2.2.2
      presentsTest (asking f yard) 0x12 f = true ∧ u16 f.body 0 = p.2.1 ∧ decEnum assetKinds (u8 f.body 2) = some v.kind ∧
        u8 f.body 3 = v.station ∧
        (∀ e ∈ [(4, v.points.main), (5, v.points.aux), (6, v.points.door), (7, v.points.supply), (8, v.points.detect)],
          u8 f.body e.1 = e.2.getD 255 ∧ e.2.getD 0 ≤ 63) ∧
        (assetFields f).drop 7 = [v.profile, v.priority, v.area, v.feeder, v.lampCount, v.doubling.toNat, v.label.length] ∧
        decEnum booleans (u8 f.body 14) = some v.doubling ∧ v.label = (f.body.drop 16).take (u8 f.body 15) ∧
        (∀ ch ∈ v.label, 0x20 ≤ ch.toNat ∧ ch.toNat ≤ 0x7E) ∧ ((rolePoints v.points).map Prod.fst).Nodup ∧
        stationOf yard v.station = some st ∧ (lineOf yard st.settings.line).state = .stopped ∧ Table.wf st.pointMap = true ∧
        (∀ e ∈ rolePoints v.points, (Table.find st.pointMap e.1).all (fun o => decide (o.1 = p.2.1)) = true) ∧
        ∀ e ∈ yard.directory.assets, e.1 ≠ p.2.1 → e.2.settings.kind = .cabinet → v.kind = .cabinet → e.2.settings.feeder ≠ v.feeder) ∧
      assetOf yard 4095 = none ∧ assetOf yard 1 = some circuit ∧
      (let r := { recordIn .active .circuitDark with incident := some 121 }
       let s : State := { yard with faults := [(recordKey 1 .circuitDark, r)], incidents := { slots := [(121, { state := .opened, members := 1 })] } }
       Presents (asking g s) 0x13 g ∧ assetOf s (u16 g.body 0) = some cabinet ∧
        stationOf s cabinet.settings.station = some station1 ∧ (lineOf s station1.settings.line).state = .stopped ∧
        Table.wf station1.pointMap = true ∧ cabinet.settings.kind = .cabinet ∧ cabinet.settings.feeder = 1 ∧ Table.wf s.faults = true ∧
        recordOf s (recordKey 1 .circuitDark) = some r ∧ keyAsset (recordKey 1 .circuitDark) ≠ u16 g.body 0 ∧ feederSlot 1 = 121) :=
  ⟨by decide +kernel, rfl, rfl, presents_of_test (by decide), by decide, rfl, rfl, by decide, rfl, rfl, by decide, by decide, by decide, rfl⟩

/-- Profile 15 with DEFERRED and with IMMEDIATE take-up, profile number 16, and a learn_floor of 0; READ-PROFILE 15; area 64 with the least threshold and the
largest calm level under it, with threshold 0, and with threshold 2. -/
theorem witness_ProfilesAndAreasAreStored :
    let f (n : Nat) (p : Profile) : Frame := { kind := 0x14#8, tag := 7#8, body := BitVec.ofNat 8 n :: encProfile p }
    let g (l : List Nat) : Frame := frameOf 0x15 l
    (∀ p ∈ [f 15 .lamps, f 15 { Profile.lamps with immediate := true }, f 16 .lamps, f 0 { Profile.lamps with learnFloor := 0 }],
      presentsTest (asking p yard) 0x14 p = true) ∧
      parseProfile (f 15 .lamps).body = some (15, Profile.lamps) ∧ u8 (f 15 .lamps).body 13 = 0 ∧
      parseProfile (f 15 { Profile.lamps with immediate := true }).body = some (15, { Profile.lamps with immediate := true }) ∧
      u8 (f 15 { Profile.lamps with immediate := true }).body 13 = 1 ∧
      15 < u8 (f 16 .lamps).body 0 ∧ u16 (f 0 { Profile.lamps with learnFloor := 0 }).body 24 = 0 ∧
      presentsTest (asking (frameOf 0x1A [15]) yard) 0x1A (frameOf 0x1A [15]) = true ∧
      yard.directory.profiles[u8 (frameOf 0x1A [15]).body 0]? = some Profile.lamps ∧
      (∀ l ∈ [[64, 0, 3, 0, 2, 4], [1, 0, 0, 0, 0, 1], [1, 0, 2, 0, 1, 1]], presentsTest (asking (g l) yard) 0x15 (g l) = true) ∧
      u16 (g [64, 0, 3, 0, 2, 4]).body 3 < u16 (g [64, 0, 3, 0, 2, 4]).body 1 ∧ u16 (g [1, 0, 0, 0, 0, 1]).body 1 = 0 ∧
      u16 (g [1, 0, 2, 0, 1, 1]).body 1 = 2 := by decide

/-- Records that take up the terms of the factory profile of lamps: QUALIFYING at the confirm term and short of it, COUNT at the count, with the window spent and
not, RESTORING at clear_time and short of it, and ACTIVE. -/
theorem witness_ProfilesAndAreasAreStored_takeUp :
    let s (c : Condition) (r : Record) : State := { yard with faults := [(recordKey 1 c, r)] }
    let q (n : Nat) : Record := { recordIn .qualifying .doorOpen with timer := n }
    let k (e left : Nat) : Record := { recordIn .qualifying .loopChatter with
      evidence := e, windowLeft := some left, terms := { (recordIn .qualifying .loopChatter).terms with confirm := .count 30 601 } }
    let z (n : Nat) : Record := { recordIn .restoring .doorOpen with timer := n }
    let new (c : Condition) : Terms := termsOf c (assetProfile yard 1)
    (∀ p ∈ [(Condition.doorOpen, q 120), (.doorOpen, q 119), (.loopChatter, k 20 1), (.loopChatter, k 19 1), (.loopChatter, k 19 2),
        (.doorOpen, z 300), (.doorOpen, z 299), (.doorOpen, recordIn .active .doorOpen)],
      recordOf (s p.1 p.2) (recordKey 1 p.1) = some p.2) ∧
      (new .doorOpen).confirm = .time 120 ∧ (new .loopChatter).confirm = .count 20 600 ∧ (new .doorOpen).clearTime = 300 ∧
      600 ≤ 601 - ((k 19 1).windowLeft.getD 0) ∧ ¬ 600 ≤ 601 - ((k 19 2).windowLeft.getD 0) := by decide

/-- A marked outstation; a lamp circuit, and a cabinet. -/
theorem witness_ReadStationAndRelearn :
    let s : State := { yard with directory := { yard.directory with stations := [(1, { station1 with unmapped := true })] } }
    Presents (asking (frameOf 0x18 [1]) s) 0x18 (frameOf 0x18 [1]) ∧ stationOf s 1 = some { station1 with unmapped := true } ∧
      Presents (asking (frameOf 0x40 [0, 1]) yard) 0x40 (frameOf 0x40 [0, 1]) ∧ assetOf yard 1 = some circuit ∧
      circuit.settings.kind ≠ .cabinet ∧
      Presents (asking (frameOf 0x40 [0, 0]) yard) 0x40 (frameOf 0x40 [0, 0]) ∧ assetOf yard 0 = some cabinet ∧
      cabinet.settings.kind = .cabinet :=
  ⟨presents_of_test (by decide), rfl, presents_of_test (by decide), rfl, by decide, presents_of_test (by decide), rfl, rfl⟩

/-! ## Witnesses: incidents, the queue, ALERT -/

/-- The slot of feeder 1 open with one member; and the slot of outstation 120. -/
theorem witness_BreakOutFreesSlot :
    let f := frameOf 0x5A [121]
    let g := frameOf 0x5A [120]
    let s : State := { yard with
      faults := [(recordKey 0 .mainsLost, { recordIn .active .mainsLost with incident := some 121 })]
      incidents := { slots := [(121, { state := .opened, members := 1, root := some (recordKey 0 .mainsLost) })] } }
    Presents (asking f s) 0x5A f ∧ Table.wf s.faults = true ∧ 120 < u8 f.body 0 ∧ (slotOf s (u8 f.body 0)).state ≠ .free ∧
      Presents (asking g s) 0x5A g ∧ u8 g.body 0 ≤ 120 :=
  ⟨presents_of_test (by decide), by decide, by decide, by decide, presents_of_test (by decide), by decide⟩

/-- A record that needs a NEW item, acknowledged so; one that needs a RESTORED item; and one that does not exist. The same of an incident; and a field outside its
values. -/
theorem witness_AcknowledgeRecord :
    let new := frameOf 0x62 [0, 0, 0, 1, 0]
    let old := frameOf 0x62 [0, 0, 0, 1, 1]
    let s (r : Record) : State := { yard with faults := [(recordKey 0 .mainsLost, r)] }
    let inc (reason : Nat) : Frame := frameOf 0x62 [1, 248, 0, 0, reason]
    let u (st : SlotState) : State := { yard with
      faults := [(recordKey 0 .mainsLost, { recordIn .active .mainsLost with incident := some 248 })]
      incidents := { slots := [(248, { state := st, members := 1 })] } }
    (Presents (asking new (s (recordIn .active .mainsLost))) 0x62 new ∧ u8 new.body 0 = 0 ∧ u16 new.body 1 = 0 ∧ u8 new.body 3 = 1 ∧
      u8 new.body 4 = 0 ∧ recordOf (s (recordIn .active .mainsLost)) (0 * 16 + 1) = some (recordIn .active .mainsLost) ∧
      recordNeed (recordIn .active .mainsLost) = some .new ∧
      Presents (asking old (s (recordIn .restored .mainsLost))) 0x62 old ∧ u8 old.body 4 = 1 ∧
      recordNeed (recordIn .restored .mainsLost) = some .restored ∧ recordNeed (recordIn .restored .mainsLost) ≠ some .new ∧
      Presents (asking new yard) 0x62 new ∧ recordOf yard (0 * 16 + 1) = none) ∧
      (Presents (asking (inc 0) (u .opened)) 0x62 (inc 0) ∧ u8 (inc 0).body 0 = 1 ∧ u8 (inc 0).body 1 = 248 ∧
        slotNeed (slotOf (u .opened) 248) = some .new ∧ Table.wf (u .opened).faults = true ∧
        Presents (asking (inc 1) (u .restored)) 0x62 (inc 1) ∧ slotNeed (slotOf (u .restored) 248) = some .restored ∧
        Presents (asking (inc 0) yard) 0x62 (inc 0) ∧ (slotOf yard 248).state = .free) ∧
      Presents (asking (frameOf 0x62 [1, 249, 0, 0, 0]) yard) 0x62 (frameOf 0x62 [1, 249, 0, 0, 0]) :=
  ⟨⟨presents_of_test (by decide), rfl, rfl, rfl, rfl, rfl, rfl, presents_of_test (by decide), rfl, rfl, by decide,
    presents_of_test (by decide), rfl⟩,
    ⟨presents_of_test (by decide), rfl, rfl, rfl, by decide, presents_of_test (by decide), rfl, presents_of_test (by decide), rfl⟩,
    presents_of_test (by decide)⟩

/-- 192 queued items, with one that ranks ahead of the last, and one that does not; and a queue with room. -/
theorem witness_PlacingAnItemKeepsRank :
    let item (k : Nat) : Item := { thing := .incident k, reason := .new, rankClass := 2, orderTime := k }
    let s : State := setQueue ((List.range 192).map (fun k => item (k + 1))) yard
    s.dispatch.queue.Pairwise (fun x y => x.ahead y = true) ∧ (∀ x ∈ s.dispatch.queue, x.thing ≠ (item 0).thing ∧ x.thing ≠ (item 193).thing) ∧
      s.dispatch.queue.length = 192 ∧ s.dispatch.queue.getLast? = some (item 192) ∧ (item 0).ahead (item 192) = true ∧
      (item 193).ahead (item 192) = false ∧ (∀ key, (item 192).thing ≠ .record key ∧ (item 193).thing ≠ .record key) ∧
      yard.dispatch.queue.length < 192 := by
  refine ⟨by decide +kernel, by decide +kernel, by decide +kernel, by decide +kernel, by decide, by decide, fun _ => ?_, by decide⟩
  exact ⟨fun h => (nomatch h), fun h => (nomatch h)⟩

/-- 192 queued incidents in rank order, of outstation 1 first, which is SILENT since run-second 1; and the slot of area 64, of a storm class, beside them. -/
def crowdedItems : List Item := (List.range 192).map (fun k => { thing := .incident (k + 1), reason := .new, rankClass := 2, orderTime := k + 1 })

def crowded (openedAt stormClass : Nat) (v : Slot) : State := { yard with
  directory := { yard.directory with areas := [(64, { stormClass })] }
  incidents := { slots := [(1, { state := .opened, openedAt := some openedAt }), (248, v)] }
  dispatch := { queue := crowdedItems } }

/-- The waiting slots: one that needs its item, and one that needs none. -/
def waitingSlots : List Slot := [{ state := .opened, openedAt := some 0, waiting := some .new }, { waiting := some .new }]

theorem crowded_ordered : ∀ v ∈ waitingSlots, QueueOrdered (crowded 1 1 v) ∧ QueueOrdered (crowded 0 1 v) ∧ QueueOrdered (crowded 0 4 v) := by
  intro v hv
  have ranked : crowdedItems.Pairwise (fun i j => i.ahead j = true) := by decide +kernel
  have things : (crowdedItems.map Item.thing).Nodup := by decide +kernel
  have apart : ∀ v ∈ waitingSlots, ∀ i ∈ crowdedItems, markOf (crowded 1 1 v) i.thing = none ∧ markOf (crowded 0 1 v) i.thing = none ∧
      markOf (crowded 0 4 v) i.thing = none := by decide +kernel
  have bound : crowdedItems.length = 192 := by decide +kernel
  have full : ∀ s : State, s.dispatch.queue = crowdedItems → s.dispatch.queue.length < Config.maxQueue → waitingItems s = [] := by
    intro s h hlt
    rw [h, bound] at hlt
    exact absurd hlt (by decide)
  exact ⟨⟨rfl, rfl, ranked, things, fun i hi => (apart v hv i hi).1, Nat.le_of_eq bound, full _ rfl⟩,
    ⟨rfl, rfl, ranked, things, fun i hi => (apart v hv i hi).2.1, Nat.le_of_eq bound, full _ rfl⟩,
    ⟨rfl, rfl, ranked, things, fun i hi => (apart v hv i hi).2.2, Nat.le_of_eq bound, full _ rfl⟩⟩

/-- A full queue with one waiting item: a withdrawal of a queued and of the waiting one; outstation 1's item with its rank changed, and not; and the waiting one,
which ranks ahead of the last queued item, or behind it. A queue with room: a new item, a withdrawal, and a thing with no need. -/
theorem witness_QueueActionServesNeeds :
    let v : Slot := { state := .opened, openedAt := some 0, waiting := some .new }
    let w : Slot := { waiting := some .new }
    let i : Item := { thing := .record (recordKey 0 .mainsLost), reason := .new, rankClass := 2, orderTime := 0 }
    let b (c : Nat) : Item := { thing := .incident 248, reason := .new, rankClass := c, orderTime := 0 }
    let s : State := { yard with faults := [(recordKey 0 .mainsLost, recordIn .active .mainsLost)] }
    let q : State := setQueue [i] { yard with faults := [(recordKey 0 .mainsLost, recordIn .qualifying .mainsLost)] }
    (QueueOrdered s ∧ standingOf s i.thing = .none ∧ needOf s i.thing = some .new) ∧
      (QueueOrdered q ∧ standingOf q i.thing = .queued .new ∧ needOf q i.thing = none ∧ waitingItems q = []) ∧
      (∀ c ∈ [1, 4], QueueOrdered (crowded 0 c v) ∧ (∀ x, BestOf x [b c] ↔ x = b c) ∧ waitingItems (crowded 0 c v) = [b c] ∧
        standingOf (crowded 0 c v) (.incident 2) = .queued .new ∧ needOf (crowded 0 c v) (.incident 2) = none ∧
        queuedItem (crowded 0 c v) (.incident 1) = some { thing := .incident 1, reason := .new, rankClass := 2, orderTime := 1 } ∧
        mkItem (crowded 0 c v) (.incident 1) .new = { thing := .incident 1, reason := .new, rankClass := 2, orderTime := 0 } ∧
        needOf (crowded 0 c v) (.incident 1) = some .new ∧
        standingOf (crowded 0 c v) (.incident 248) = .waiting .new ∧ needOf (crowded 0 c v) (.incident 248) = some .new ∧
        (b c).ahead { thing := .incident 192, reason := .new, rankClass := 2, orderTime := 192 } = decide (c = 1) ∧
        standingOf (crowded 0 c v) (.incident 249) = .none ∧ needOf (crowded 0 c v) (.incident 249) = none) ∧
      (crowdedItems.getLast? = some { thing := .incident 192, reason := .new, rankClass := 2, orderTime := 192 } ∧ crowdedItems.length = 192) ∧
      (QueueOrdered (crowded 1 1 w) ∧ standingOf (crowded 1 1 w) (.incident 248) = .waiting .new ∧
        needOf (crowded 1 1 w) (.incident 248) = none ∧
        queuedItem (crowded 1 1 w) (.incident 1) = some (mkItem (crowded 1 1 w) (.incident 1) .new)) := by
  refine ⟨⟨⟨by decide, by decide, by decide, by decide, by decide, by decide, by decide⟩, by decide, by decide⟩,
    ⟨⟨by decide, by decide, by decide, by decide, by decide, by decide, by decide⟩, by decide, by decide, by decide⟩, fun c hc => ?_,
    ⟨by decide +kernel, by decide +kernel⟩, (crowded_ordered _ (by decide)).1, by decide +kernel, by decide +kernel, by decide +kernel⟩
  refine ⟨?_, fun x => ⟨fun h => List.mem_singleton.mp h.1, fun h => ?_⟩, ?_⟩
  · have := crowded_ordered { state := .opened, openedAt := some 0, waiting := some .new } (by decide)
    simp only [List.mem_cons, List.not_mem_nil, or_false] at hc
    obtain rfl | rfl := hc
    · exact this.2.1
    · exact this.2.2
  · subst h
    exact ⟨List.mem_singleton.mpr rfl, fun d hd hne => absurd (List.mem_singleton.mp hd) hne⟩
  · revert c
    decide +kernel

/-- The largest fields, and a flash period in its on-phase. -/
theorem witness_AlertSettingsAndFlashPattern :
    let f := frameOf 0x63 [0, 19, 136, 19, 136]
    let p : FlashPeriod := { onPhase := true, settings := {} }
    let s : State := { yard with dispatch := { alert := .flash, flash := some p } }
    Presents (asking f yard) 0x63 f ∧ decEnum booleans (u8 f.body 0) = some false ∧ u16 f.body 1 = 5000 ∧ u16 f.body 3 = 5000 ∧
      settled s = true ∧ s.dispatch.alert = .flash ∧ s.dispatch.flash = some p ∧ p.onPhase = true ∧ p.settings.onTime < p.settings.period :=
  ⟨presents_of_test (by decide), rfl, by decide, by decide, by decide, rfl, rfl, rfl, by decide⟩

theorem witness_SetNoticesSwitchesNotices :
    Presents (asking (frameOf 0x64 [1]) yard) 0x64 (frameOf 0x64 [1]) ∧ yard.dispatch.notices = false ∧
      Presents (asking (frameOf 0x64 [0]) { yard with dispatch := { notices := true } }) 0x64 (frameOf 0x64 [0]) ∧
      Presents (asking (frameOf 0x64 [0]) yard) 0x64 (frameOf 0x64 [0]) ∧
      Presents (asking (frameOf 0x64 [2]) yard) 0x64 (frameOf 0x64 [2]) :=
  ⟨presents_of_test (by decide), rfl, presents_of_test (by decide), presents_of_test (by decide), presents_of_test (by decide)⟩

/-! ## Witnesses: invariants -/

/-- The recorded yard is within every bound, and a tick on it answers a next state. -/
theorem witness_StepKeepsSizes : Sized recorded ∧ step (recorded.withPending [.secondsTick true]) =
    .next (after (exec (.secondsTick true) recorded)) := by
  refine ⟨⟨⟨by decide, by decide, by decide +kernel, by decide⟩, ⟨by decide, by decide⟩, by decide, fun l => ?_, ⟨rfl, by decide, by decide⟩,
    by decide, fun _ h => (nomatch h), by decide, by decide, fun _ h => (nomatch h), fun _ h => (nomatch h), fun _ h => (nomatch h)⟩, rfl⟩
  cases l <;> exact ⟨by decide, by decide, by decide, ⟨fun h => (nomatch h), fun ⟨_, _, h⟩ => (nomatch h)⟩, fun _ _ h => (nomatch h)⟩

theorem witness_StepKeepsRecordsFitting : RecordsFit recorded := by
  intro e h
  obtain rfl := List.mem_singleton.mp h
  exact ⟨by decide, by decide, fun _ => ⟨120, rfl⟩, fun _ => rfl, fun _ => rfl⟩

/-- A queue that makes the output flash. -/
theorem witness_StepKeepsAlertDerived :
    let i : Item := { thing := .record 1, reason := .new, rankClass := 2, orderTime := 0 }
    AlertAgrees { queue := [i], alert := .flash, pinHigh := true, flash := some { onPhase := true, settings := {} } } ∧
    AlertAgrees { queue := [{ i with reason := .restored, rankClass := 4 }] } :=
  ⟨⟨by decide, by decide, by decide, by decide, by decide⟩, ⟨by decide, by decide, by decide, by decide, by decide⟩⟩

/-- An empty queue over a table with a record, and a queue of one item. -/
theorem witness_StepKeepsQueueOrdered :
    let i : Item := { thing := .record (recordKey 0 .mainsLost), reason := .new, rankClass := 2, orderTime := 0 }
    QueueOrdered recorded ∧ QueueOrdered (setQueue [i] recorded) :=
  ⟨⟨by decide, by decide, by decide, by decide, by decide, by decide, by decide⟩,
    ⟨by decide, by decide, by decide, by decide, by decide, by decide, by decide⟩⟩

theorem witness_StepKeepsTablesCanonical : Canonical recorded :=
  ⟨by decide, by decide, by decide, by decide, by decide, by decide, by decide, by decide, by decide, by decide, fun _ h => (nomatch h),
    fun _ h => (nomatch h)⟩

end Sys2Proof.Tests
end

section
/-! PROOF. Every table keeps its canonical form: the blocks that hold tables, what the primitive changes do to them, and the step. -/

namespace Sys2Proof.Machine

/-! ## The blocks that hold tables -/

/-- The tables of the Asset Directory, the point maps among them, are in their canonical form. -/
structure DirectoryCanonical (d : Directory) : Prop where
  stations : Table.wf d.stations = true
  pointMaps : ∀ e ∈ d.stations, Table.wf e.2.pointMap = true
  assets : Table.wf d.assets = true
  areas : Table.wf d.areas = true
  areaDefaults : Table.noDefaults {} d.areas = true

/-- The tables of the Incident Table are in their canonical form. -/
structure IncidentsCanonical (k : Incidents) : Prop where
  slots : Table.wf k.slots = true
  slotDefaults : Table.noDefaults {} k.slots = true
  storms : Table.wf k.storms = true
  stormDefaults : Table.noDefaults calmWindow k.storms = true

/-- The configurations of the Settings Store have their tables in canonical form. -/
structure StoreCanonical (k : Store) : Prop where
  image : ∀ i, k.image = some i → ConfigurationCanonical i.contents
  captured : ∀ v, k.saving = some v → ConfigurationCanonical v.captured

/-- The canonical form is a matter of four blocks. -/
theorem canonical_iff (s : State) : Canonical s ↔
    DirectoryCanonical s.directory ∧ Table.wf s.faults = true ∧ IncidentsCanonical s.incidents ∧ StoreCanonical s.store :=
  ⟨fun h => ⟨⟨h.stations, h.pointMaps, h.assets, h.areas, h.areaDefaults⟩, h.faults,
      ⟨h.slots, h.slotDefaults, h.storms, h.stormDefaults⟩, ⟨h.image, h.captured⟩⟩,
    fun ⟨d, f, k, c⟩ => ⟨d.stations, d.pointMaps, d.assets, d.areas, d.areaDefaults, f, k.slots, k.slotDefaults, k.storms,
      k.stormDefaults, c.image, c.captured⟩⟩

theorem Canonical.directory {s : State} (h : Canonical s) : DirectoryCanonical s.directory := ((canonical_iff s).mp h).1
theorem Canonical.incidents {s : State} (h : Canonical s) : IncidentsCanonical s.incidents := ((canonical_iff s).mp h).2.2.1
theorem Canonical.store {s : State} (h : Canonical s) : StoreCanonical s.store := ((canonical_iff s).mp h).2.2.2

/-- A change keeps the canonical form when it does so block by block; a block that it leaves as it is needs no word. -/
theorem Canonical.change {s t : State} (h : Canonical s)
    (hd : DirectoryCanonical s.directory → DirectoryCanonical t.directory := by exact id)
    (hf : Table.wf s.faults = true → Table.wf t.faults = true := by exact id)
    (hi : IncidentsCanonical s.incidents → IncidentsCanonical t.incidents := by exact id)
    (hs : StoreCanonical s.store → StoreCanonical t.store := by exact id) : Canonical t :=
  (canonical_iff t).mpr ⟨hd h.directory, hf h.faults, hi h.incidents, hs h.store⟩

/-! ## The Asset Directory -/

/-- A change of an outstation that keeps its point map canonical keeps the directory canonical. -/
theorem DirectoryCanonical.modify_station {d : Directory} (h : DirectoryCanonical d) (n : Nat) {f : Station → Station} (hf : StationChange f) :
    DirectoryCanonical { d with stations := Table.modify d.stations n f } := by
  refine ⟨Table.wf_modify h.stations n f, fun e he => ?_, h.assets, h.areas, h.areaDefaults⟩
  obtain ⟨e, he', rfl⟩ := List.mem_map.mp he
  split
  · exact (hf e.2).2 (h.pointMaps e he')
  · exact h.pointMaps e he'

/-- An outstation that is new, or keeps its point map, is written into a canonical directory. -/
theorem DirectoryCanonical.insert_station {s : State} (h : DirectoryCanonical s.directory) {n : Nat} {v : Station} (hv : StationKept s n v) :
    DirectoryCanonical { s.directory with stations := Table.insert s.directory.stations n v } := by
  refine ⟨Table.wf_insert h.stations n v, fun e he => ?_, h.assets, h.areas, h.areaDefaults⟩
  rcases Table.mem_insert _ _ _ e he with rfl | he
  · rcases hv.pointMap with hm | ⟨st, hst, hm⟩
    · rw [hm]; rfl
    · rw [hm]; exact h.pointMaps _ (Table.mem_of_find hst)
  · exact h.pointMaps e he

theorem DirectoryCanonical.erase_station {d : Directory} (h : DirectoryCanonical d) (n : Nat) :
    DirectoryCanonical { d with stations := Table.erase d.stations n } :=
  ⟨Table.wf_erase h.stations n, fun e he => h.pointMaps e (List.mem_of_mem_filter he), h.assets, h.areas, h.areaDefaults⟩

/-! ## Configurations -/

/-- R2: a point map rebuilt from the assets' roles is canonical. -/
theorem rebuildMap_wf (assets : Table (AssetSettings × Nat)) (n : Nat) : Table.wf (rebuildMap assets n) = true := by
  unfold rebuildMap
  refine List.foldlRecOn assets _ rfl (motive := fun m => Table.wf m = true) fun m hm e _ => ?_
  split
  · exact fillPoints_wf _ _ hm
  · exact hm

/-- R181: the configuration that a save captures is canonical. -/
theorem capture_canonical {s : State} (h : DirectoryCanonical s.directory) : ConfigurationCanonical (capture s) :=
  ⟨Table.wf_map h.stations _ fun _ => rfl, Table.wf_map h.assets _ fun _ => rfl, h.areas, h.areaDefaults⟩

/-- R184: the directory that start-up loads from a canonical configuration is canonical. -/
theorem loadDirectory_canonical {c : Configuration} (h : ConfigurationCanonical c) : DirectoryCanonical (loadDirectory c) := by
  refine ⟨Table.wf_map h.stations _ fun _ => rfl, fun e he => ?_, Table.wf_map h.assets _ fun _ => rfl, h.areas, h.areaDefaults⟩
  obtain ⟨e, _, rfl⟩ := List.mem_map.mp he
  exact rebuildMap_wf _ _

/-- R184: start-up loads a canonical configuration: the image's, or the factory values. -/
theorem startConfiguration_canonical {k : Store} (h : StoreCanonical k) : ConfigurationCanonical (startConfiguration k) := by
  have factory : ConfigurationCanonical {} := ⟨rfl, rfl, rfl, rfl⟩
  unfold startConfiguration
  split
  · rename_i i hi
    split
    · exact h.image i hi
    · exact factory
  · exact factory

/-- R144: the Incident Table that a reset leaves is canonical. -/
theorem emptyIncidents_canonical : IncidentsCanonical {} := ⟨rfl, rfl, rfl, rfl⟩

/-- R185: RESTART keeps the directory's keys and point maps. -/
theorem restartDirectory_canonical {d : Directory} (h : DirectoryCanonical d) : DirectoryCanonical { d with
    stations := d.stations.map (fun e => (e.1, resetStation e.2))
    assets := d.assets.map (fun e => (e.1, resetAsset e.2)) } := by
  refine ⟨Table.wf_map h.stations _ fun _ => rfl, fun e he => ?_, Table.wf_map h.assets _ fun _ => rfl, h.areas, h.areaDefaults⟩
  obtain ⟨e, he', rfl⟩ := List.mem_map.mp he
  exact h.pointMaps e he'

/-! ## The primitive changes -/

theorem canonical_setSlot {s : State} (h : Canonical s) (n : Nat) (v : Slot) : Canonical (setSlot n v s) :=
  h.change (hi := fun k => ⟨Table.wf_store k.slots n v, Table.noDefaults_store k.slotDefaults n v, k.storms, k.stormDefaults⟩)

theorem canonical_modRecord {s : State} (h : Canonical s) (key : Nat) (f : Record → Record) : Canonical (modRecord key f s) :=
  h.change (hf := fun w => Table.wf_modify w key f)

theorem canonical_markClosed : MarkClosed Canonical where
  mark {m t s} h := by
    cases t with
    | record key => exact canonical_modRecord h key _
    | incident n => exact canonical_setSlot h n _
  queue _ h := h.change

/-- A queue action sets marks and changes the queue, which holds no table. -/
theorem canonical_queueAction {s : State} (h : Canonical s) (ts : List Thing) : Canonical (queueAction ts s) := by
  have hu := handAll_kept canonical_markClosed ts h
  unfold queueAction noteAlert noteHead
  split <;> exact hu.change

/-- Each primitive change of the state keeps the canonical form. -/
theorem canonical_closed : Closed Canonical where
  gate _ h := h.change
  station hf h := h.change (hd := fun d => d.modify_station _ hf)
  asset h := h.change (hd := fun d => ⟨d.stations, d.pointMaps, Table.wf_modify d.assets _ _, d.areas, d.areaDefaults⟩)
  recordInsert _ _ _ h := h.change (hf := fun w => Table.wf_insert w _ _)
  recordErase h := h.change (hf := fun w => Table.wf_erase w _)
  record _ h := canonical_modRecord h _ _
  slot _ h := canonical_setSlot h _ _
  window _ h := h.change (hi := fun k => ⟨k.slots, k.slotDefaults, Table.wf_store k.storms _ _, Table.noDefaults_store k.stormDefaults _ _⟩)
  queue h := canonical_queueAction h _
  flags h := h.change
  timebase _ h := h.change
  stationInsert hv h := h.change (hd := fun d => d.insert_station hv)
  stationErase h := h.change (hd := fun d => d.erase_station _)
  assetInsert h := h.change (hd := fun d => ⟨d.stations, d.pointMaps, Table.wf_insert d.assets _ _, d.areas, d.areaDefaults⟩)
  assetErase h := h.change (hd := fun d => ⟨d.stations, d.pointMaps, Table.wf_erase d.assets _, d.areas, d.areaDefaults⟩)
  profiles h := h.change (hd := fun d => ⟨d.stations, d.pointMaps, d.assets, d.areas, d.areaDefaults⟩)
  area h := h.change (hd := fun d => ⟨d.stations, d.pointMaps, d.assets, Table.wf_store d.areas _ _, Table.noDefaults_store d.areaDefaults _ _⟩)
  line _ h := h.change
  intake _ h := h.change
  noticeTaken h := h.change
  flash h := h.change
  alert h := h.change
  notices h := h.change
  link _ h := h.change
  saveCount {s v n} hv _ h := h.change (hs := fun k => ⟨k.image, fun w hw => by
    obtain rfl := Option.some.inj hw
    exact k.captured v hv⟩)
  saveEnd h := h.change (hs := fun _ => ⟨h.image, fun _ hw => nomatch hw⟩)
  saveStart {s} h := h.change (hs := fun _ => by
    refine ⟨fun i hi => ?_, fun _ hw => by cases hw; exact capture_canonical h.directory⟩
    obtain ⟨j, hj, rfl⟩ := Option.map_eq_some_iff.mp hi
    exact h.image j hj)
  saveDone {s} h := by
    unfold completeSave
    split
    · exact h
    · rename_i v hv
      exact h.change (hs := fun _ => ⟨fun _ hi => by cases hi; exact h.captured v hv, fun _ hw => nomatch hw⟩)
  tick h := h.change
  pending h := h.change
  powerOn h := h.change (hd := fun _ => loadDirectory_canonical (startConfiguration_canonical h.store)) (hf := fun _ => rfl)
    (hi := fun _ => emptyIncidents_canonical) (hs := fun _ => ⟨h.image, fun _ hw => nomatch hw⟩)
  restart h := h.change (hd := fun d => restartDirectory_canonical d) (hf := fun _ => rfl) (hi := fun _ => emptyIncidents_canonical)
  factory h := h.change (hd := fun _ => ⟨rfl, fun _ he => (nomatch he), rfl, rfl, rfl⟩) (hf := fun _ => rfl)
    (hi := fun _ => emptyIncidents_canonical)

/-! ## The step -/

/-- What the primitive changes keep, a step keeps: the front command with the queue's rest, or the time that passes. -/
theorem step_closed {P : State → Prop} (hP : Closed P) {s t : State} (h : P s) (hs : step s = .next t) : P t := by
  unfold step at hs
  split at hs
  · cases hs
    exact passIdle_closed hP (settle_closed hP h)
  · rename_i c cs _
    exact exec_closed hP c (s := s.withPending cs) (hP.pending h) hs

end Sys2Proof.Machine

namespace Sys2Proof.Proofs

open Sys2Proof.Machine

/-- Settles O59: the canonical form is closed under the primitive changes, so a step keeps it. -/
theorem stepKeepsTablesCanonical : Obligations.StepKeepsTablesCanonical := fun _ _ h hs => step_closed canonical_closed h hs

end Sys2Proof.Proofs
end

section
/-! PROOF. What a presented request comes to, and the requests that change no table of records: the reads (R17, R116, R117, R142, R143, R157,
R158) and RELEARN (R87). -/

namespace Sys2Proof.Machine

/-! ## Serving a presented request -/

/-- A presented request is answered by its owner. -/
theorem exec_presents {c : Instr} {code : Nat} {own : List Byte → State → State × Served} {s : State} {f : Frame} (h : Presents s code f)
    (hx : exec c s = .next (serve code own s) := by rfl) (hk : (requestKind code).isSome = true := by decide) :
    exec c s = .next (reply f (own f.body s)) := by
  rw [hx, serve_presents h hk]

/-- A presented request that its owner takes, with data for the reply. -/
theorem exec_taken {c : Instr} {code : Nat} {own : List Byte → State → State × Served} {s t : State} {f : Frame} {data : List Byte}
    (h : Presents s code f) (ho : own f.body s = (t, { result := .ok, data })) (hx : exec c s = .next (serve code own s) := by rfl)
    (hk : (requestKind code).isSome = true := by decide) : exec c s = .next (withReply f .ok data .nothing t) := by
  rw [exec_presents h hx hk, ho]; rfl

/-- A presented request that its owner refuses. -/
theorem exec_refused {c : Instr} {code : Nat} {own : List Byte → State → State × Served} {s : State} {f : Frame} {r : Result}
    (h : Presents s code f) (ho : own f.body s = (s, refuse r)) (hx : exec c s = .next (serve code own s) := by rfl)
    (hk : (requestKind code).isSome = true := by decide) : exec c s = .next (withReply f r [] .nothing s) := by
  rw [exec_presents h hx hk, ho, reply_refuse]

@[simp] theorem assetOf_withReply (f : Frame) (r : Result) (data : List Byte) (a : AfterReply) (s : State) (n : Nat) :
    assetOf (withReply f r data a s) n = assetOf s n := rfl

/-! ## Fields of a body -/

@[simp] theorem inRange_iff (lo hi n : Nat) : inRange lo hi n = true ↔ lo ≤ n ∧ n ≤ hi := by
  simp [inRange]

/-- R88: a body key in range is read. -/
theorem bodyKey_eq {b : List Byte} {i : Nat} (ha : u16 b i ≤ 4095) (h1 : 1 ≤ u8 b (i + 2)) (h2 : u8 b (i + 2) ≤ 13) :
    bodyKey b i = some (u16 b i * 16 + u8 b (i + 2)) :=
  if_pos ⟨ha, h1, h2⟩

/-- R176: the sets of LIST-RECORDS: any of the positions 0 to 3. -/
theorem setValid_records {n : Nat} (h1 : 1 ≤ n) (h2 : n ≤ 15) : setValid n 0 3 = true := by
  simp only [setValid, Bool.and_eq_true, decide_eq_true_eq]
  omega

/-- R176: the set of LIST-INCIDENTS: any of the positions 1 to 3. -/
theorem setValid_incidents {n : Nat} (h : n ∈ [2, 4, 6, 8, 10, 12, 14]) : setValid n 1 3 = true := by
  revert n; decide

/-! ## The reads -/

theorem ownReadAsset_found {b : List Byte} {s : State} {x : Asset} (h : u16 b 0 ≤ 4095) (hx : assetOf s (u16 b 0) = some x) :
    ownReadAsset b s = (s, { result := .ok, data := encAsset x }) := by
  simp [ownReadAsset, Config.maxAsset, inRange, h, hx]

theorem ownReadProfile_inRange {b : List Byte} {s : State} (h : u8 b 0 ≤ 15) :
    ownReadProfile b s = (s, { result := .ok, data := encProfile (profileOf s (u8 b 0)) }) := by
  simp [ownReadProfile, inRange, h]

theorem ownReadRecord_found {b : List Byte} {s : State} {key : Nat} {r : Record} (hk : bodyKey b 0 = some key) (hr : recordOf s key = some r) :
    ownReadRecord b s = (s, { result := .ok, data := encRecord r ++ encRecordView s key r }) := by
  simp [ownReadRecord, hk, hr]

/-- R117: a listing of records from a key in range, of sets in range, is taken. -/
theorem ownListRecords_ok {b : List Byte} {s : State} {key : Nat} (hk : bodyKey b 0 = some key) (h1 : setValid (u8 b 3) 0 3 = true)
    (h2 : setValid (u8 b 4) 0 3 = true) : ∃ data, ownListRecords b s = (s, { result := .ok, data }) := by
  simp [ownListRecords, hk, h1, h2]

/-- R142: a reading of a slot in range, with members from a key in range, is taken. -/
theorem ownReadIncident_ok {b : List Byte} {s : State} {key : Nat} (hn : slotInRange (u8 b 0) = true) (hk : bodyKey b 1 = some key) :
    ∃ data, ownReadIncident b s = (s, { result := .ok, data }) := by
  simp [ownReadIncident, hk, hn]

/-- R143: a listing of slots from a slot in range, of a set in range, is taken. -/
theorem ownListIncidents_ok {b : List Byte} {s : State} (hn : slotInRange (u8 b 0) = true) (h : setValid (u8 b 1) 1 3 = true) :
    ∃ data, ownListIncidents b s = (s, { result := .ok, data }) := by
  simp [ownListIncidents, hn, h]

/-- R158: a listing of the queue from a position in range is taken. -/
theorem ownListQueue_ok {b : List Byte} {s : State} (h1 : 1 ≤ u8 b 0) (h2 : u8 b 0 ≤ 192) :
    ∃ data, ownListQueue b s = (s, { result := .ok, data }) := by
  simp [ownListQueue, Config.maxQueue, h1, h2]

/-! ## READ-STATION and RELEARN -/

theorem ownReadStation_found {b : List Byte} {s : State} {st : Station} (h1 : 1 ≤ u8 b 0) (h2 : u8 b 0 ≤ 120)
    (hst : stationOf s (u8 b 0) = some st) :
    ownReadStation b s = (modStation (u8 b 0) (fun st => { st with unmapped := false }) s, { result := .ok, data := encStation st }) := by
  simp [ownReadStation, Config.maxStation, inRange, h1, h2, hst]

/-- R17: the data of READ-STATION ends with the unmapped-entry mark. -/
theorem encStation_getLast (st : Station) : (encStation st).getLast? = some (if st.unmapped then 1#8 else 0#8) := by
  unfold encStation
  rw [List.getLast?_append]
  cases st.unmapped <;> rfl

/-- R87: RELEARN of a CABINET is refused. -/
theorem ownRelearn_cabinet {b : List Byte} {s : State} {x : Asset} (h : u16 b 0 ≤ 4095) (hx : assetOf s (u16 b 0) = some x)
    (hk : x.settings.kind = .cabinet) : ownRelearn b s = (s, refuse .state) := by
  simp [ownRelearn, Config.maxAsset, inRange, h, hx, answer, firstRefusal, hk]

/-- R87: RELEARN of any other asset is taken. -/
theorem ownRelearn_taken {b : List Byte} {s : State} {x : Asset} (h : u16 b 0 ≤ 4095) (hx : assetOf s (u16 b 0) = some x)
    (hk : x.settings.kind ≠ .cabinet) : ownRelearn b s = (modAsset (u16 b 0) (fun x => { x with reference := 0 }) s, ok) := by
  simp [ownRelearn, Config.maxAsset, inRange, h, hx, answer, firstRefusal, hk]

end Sys2Proof.Machine

namespace Sys2Proof.Proofs

open Sys2Proof.Machine

/-- Settles O43: each read's owner answers OK on the state as it stands. -/
theorem readsChangeNothing : Obligations.ReadsChangeNothing := by
  rintro s f c (⟨rfl, h, ha, hx⟩ | ⟨rfl, h, hp⟩ | ⟨rfl, h, ha, h1, h2, hr⟩ | ⟨rfl, h, ha, h1, h2, h3, h4, h5, h6⟩ |
    ⟨rfl, h, h1, h2, ha, h3, h4⟩ | ⟨rfl, h, h1, h2, h3⟩ | ⟨rfl, h⟩ | ⟨rfl, h, h1, h2⟩)
  · -- READ-ASSET
    obtain ⟨x, hx⟩ := Option.isSome_iff_exists.mp hx
    exact ⟨_, exec_taken h (ownReadAsset_found ha hx)⟩
  · -- READ-PROFILE
    exact ⟨_, exec_taken h (ownReadProfile_inRange hp)⟩
  · -- READ-RECORD
    obtain ⟨r, hr⟩ := Option.isSome_iff_exists.mp hr
    exact ⟨_, exec_taken h (ownReadRecord_found (bodyKey_eq ha h1 h2) hr)⟩
  · -- LIST-RECORDS
    obtain ⟨data, ho⟩ := ownListRecords_ok (s := s) (bodyKey_eq ha h1 h2) (setValid_records h3 h4) (setValid_records h5 h6)
    exact ⟨data, exec_taken h ho⟩
  · -- READ-INCIDENT
    obtain ⟨data, ho⟩ := ownReadIncident_ok (s := s) ((inRange_iff _ _ _).mpr ⟨h1, h2⟩) (bodyKey_eq ha h3 h4)
    exact ⟨data, exec_taken h ho⟩
  · -- LIST-INCIDENTS
    obtain ⟨data, ho⟩ := ownListIncidents_ok (s := s) ((inRange_iff _ _ _).mpr ⟨h1, h2⟩) (setValid_incidents h3)
    exact ⟨data, exec_taken h ho⟩
  · -- PEEK
    exact ⟨_, exec_taken h rfl⟩
  · -- LIST-QUEUE
    obtain ⟨data, ho⟩ := ownListQueue_ok (s := s) h1 h2
    exact ⟨data, exec_taken h ho⟩

/-- Settles O48: the mark is the last byte of the reply and is cleared; RELEARN changes the one asset. -/
theorem readStationAndRelearn : Obligations.ReadStationAndRelearn := by
  refine ⟨fun s f st h h1 h2 hst => ?_, fun s f x h ha hx => ?_⟩
  · refine ⟨_, encStation st, exec_taken h (ownReadStation_found h1 h2 hst), encStation_getLast st, rfl, ?_,
      fun n hn => stationOf_modStation_ne _ s hn⟩
    rw [stationOf_modStation_self, hst]; rfl
  · by_cases hk : x.settings.kind = .cabinet
    · exact ⟨_, exec_refused h (ownRelearn_cabinet ha hx hk), fun _ => rfl, fun hn => absurd hk hn⟩
    · refine ⟨_, exec_taken h (ownRelearn_taken ha hx hk), fun hc => absurd hc hk, fun _ => ⟨rfl, ?_, fun a hn => ?_⟩⟩
      · rw [assetOf_withReply, assetOf_modAsset_self, hx]; rfl
      · rw [assetOf_withReply, assetOf_modAsset_ne _ s hn]

end Sys2Proof.Proofs
end

section
/-! PROOF. The laws of records and slots that removal, release and the stations' requests turn on. -/

namespace Sys2Proof.Machine

/-! ## Tables -/

/-- In a table whose keys rise, an entry that stands in it is the one found. -/
theorem Table.find_of_mem {α : Type} {t : Table α} {n : Nat} {v : α} (hw : Table.wf t = true) (h : (n, v) ∈ t) :
    Table.find t n = some v := by
  rw [Table.wf_iff] at hw
  induction t with
  | nil => simp at h
  | cons e t ih =>
    obtain ⟨k, w⟩ := e
    obtain ⟨hk, ht⟩ := List.pairwise_cons.mp hw
    rcases List.mem_cons.mp h with heq | hmem
    · cases heq; simp [Table.find]
    · have hlt : k < n := hk n (List.mem_map_of_mem (f := Prod.fst) hmem)
      simp [Table.find, Nat.ne_of_lt hlt, ih ht hmem]

/-- In a table whose keys rise, a selection by entries is found where it holds. -/
theorem Table.find_filter {α : Type} {t : Table α} (hw : Table.wf t = true) (q : α → Bool) (n : Nat) :
    Table.find (t.filter (fun e => q e.2)) n = (Table.find t n).filter q := by
  cases hf : Table.find (t.filter (fun e => q e.2)) n with
  | some v =>
    obtain ⟨hm, hq⟩ := List.mem_filter.mp (Table.mem_of_find hf)
    rw [Table.find_of_mem hw hm, Option.filter_some, if_pos hq]
  | none =>
    cases ht : Table.find t n with
    | none => rfl
    | some v =>
      rw [Option.filter_some, if_neg]
      intro hq
      rw [Table.find_of_mem (Table.wf_filter hw _) (List.mem_filter.mpr ⟨Table.mem_of_find ht, hq⟩)] at hf
      cases hf

/-- The keys of the records that pass a test are those at which such a record is found. -/
theorem mem_recordKeys {s : State} (hw : Table.wf s.faults = true) (p : Nat → Record → Bool) (key : Nat) :
    key ∈ recordKeys s p ↔ ∃ r, recordOf s key = some r ∧ p key r = true := by
  simp only [recordKeys, List.mem_map, List.mem_filter, Prod.exists, recordOf]
  constructor
  · rintro ⟨k, r, ⟨hm, hp⟩, rfl⟩; exact ⟨r, Table.find_of_mem hw hm, hp⟩
  · rintro ⟨r, hr, hp⟩; exact ⟨key, r, ⟨Table.mem_of_find hr, hp⟩, rfl⟩

/-! ## Frames -/

/-- Only fault table, Incident Table and Dispatch Queue have changed. -/
structure TablesFrame (s t : State) : Prop where
  timebase : t.timebase = s.timebase
  gate : t.gate = s.gate
  directory : t.directory = s.directory
  lines : t.lines = s.lines
  intake : t.intake = s.intake
  link : t.link = s.link
  store : t.store = s.store
  tick : t.tick = s.tick
  pending : t.pending = s.pending

theorem TablesFrame.refl (s : State) : TablesFrame s s := ⟨rfl, rfl, rfl, rfl, rfl, rfl, rfl, rfl, rfl⟩

theorem TablesFrame.trans {s t u : State} (h : TablesFrame s t) (k : TablesFrame t u) : TablesFrame s u :=
  ⟨k.1.trans h.1, k.2.trans h.2, k.3.trans h.3, k.4.trans h.4, k.5.trans h.5, k.6.trans h.6, k.7.trans h.7, k.8.trans h.8, k.9.trans h.9⟩

theorem TablesFrame.eq {s t : State} (h : TablesFrame s t) :
    t = { s with faults := t.faults, incidents := t.incidents, dispatch := t.dispatch } := by
  obtain ⟨h1, h2, h3, h4, h5, h6, h7, h8, h9⟩ := h
  cases t; cases s
  simp_all

/-- The directory was changed first, and then the tables alone. -/
theorem TablesFrame.eq_directory {s t : State} {d : Directory} (h : TablesFrame { s with directory := d } t) :
    t = { s with directory := t.directory, faults := t.faults, incidents := t.incidents, dispatch := t.dispatch } := by
  rw [h.directory]
  exact h.eq

theorem TablesFrame.stationOf {s t : State} (h : TablesFrame s t) (n : Nat) :
    Sys2Proof.Machine.stationOf t n = Sys2Proof.Machine.stationOf s n := by
  simp only [Sys2Proof.Machine.stationOf, h.directory]

theorem TablesFrame.assetOf {s t : State} (h : TablesFrame s t) (a : Nat) :
    Sys2Proof.Machine.assetOf t a = Sys2Proof.Machine.assetOf s a := by
  simp only [Sys2Proof.Machine.assetOf, h.directory]

theorem TablesFrame.now {s t : State} (h : TablesFrame s t) : Sys2Proof.Machine.now t = Sys2Proof.Machine.now s := by
  simp only [Sys2Proof.Machine.now, h.timebase]

theorem MarkFrame.tables {s t : State} (h : MarkFrame s t) : TablesFrame s t :=
  ⟨h.timebase, h.gate, h.directory, h.lines, h.intake, h.link, h.store, h.tick, h.pending⟩

theorem MarkFrame.record_some {s t : State} (h : MarkFrame s t) {key : Nat} {r : Record} (hr : recordOf s key = some r) :
    ∃ q, recordOf t key = some q ∧ q.unmarked = r.unmarked := by
  have := h.record key
  rw [hr] at this
  exact Option.map_eq_some_iff.mp this

theorem MarkFrame.record_none {s t : State} (h : MarkFrame s t) {key : Nat} (hr : recordOf s key = none) : recordOf t key = none := by
  have := h.record key
  rw [hr] at this
  exact Option.map_eq_none_iff.mp this

/-- Beside the tables' frame, the storm windows are as they were. -/
structure SlotsFrame (s t : State) : Prop extends TablesFrame s t where
  storms : t.incidents.storms = s.incidents.storms

theorem SlotsFrame.refl (s : State) : SlotsFrame s s := ⟨.refl s, rfl⟩

theorem SlotsFrame.trans {s t u : State} (h : SlotsFrame s t) (k : SlotsFrame t u) : SlotsFrame s u :=
  ⟨h.toTablesFrame.trans k.toTablesFrame, k.storms.trans h.storms⟩

theorem foldl_slotsFrame {α : Type} {f : State → α → State} (h : ∀ s a, SlotsFrame s (f s a)) (l : List α) (s : State) :
    SlotsFrame s (l.foldl f s) :=
  foldl_closed (P := SlotsFrame s) (fun t a ht => ht.trans (h t a)) l s (.refl s)

theorem setSlot_frame (n : Nat) (v : Slot) (s : State) : SlotsFrame s (setSlot n v s) := ⟨⟨rfl, rfl, rfl, rfl, rfl, rfl, rfl, rfl, rfl⟩, rfl⟩

theorem modSlot_frame (n : Nat) (f : Slot → Slot) (s : State) : SlotsFrame s (modSlot n f s) := setSlot_frame n _ s

theorem modRecord_frame (key : Nat) (f : Record → Record) (s : State) : SlotsFrame s (modRecord key f s) :=
  ⟨⟨rfl, rfl, rfl, rfl, rfl, rfl, rfl, rfl, rfl⟩, rfl⟩

theorem queueAction_slotsFrame (ts : List Thing) (s : State) : SlotsFrame s (queueAction ts s) :=
  ⟨(queueAction_frame ts s).tables, (queueAction_frame ts s).storms⟩

@[simp] theorem recordOf_freeSlot (n : Nat) (s : State) (key : Nat) : recordOf (freeSlot n s) key = recordOf s key := rfl

@[simp] theorem slotOf_freeSlot_self (n : Nat) (s : State) : slotOf (freeSlot n s) n = {} := slotOf_setSlot_self n _ s

theorem freeSlot_frame (n : Nat) (s : State) : SlotsFrame s (freeSlot n s) := setSlot_frame n _ s

/-! ## Release (R121) -/

/-- R121: a record that is no member any more. -/
def Record.released (r : Record) : Record := { r with incident := none }

theorem releaseMember_frame (n : Nat) (s : State) (key : Nat) : SlotsFrame s (releaseMember n s key) :=
  (modSlot_frame n _ s).trans (modRecord_frame key _ _)

theorem releaseAll_frame (n : Nat) (s : State) : SlotsFrame s (releaseAll n s) := foldl_slotsFrame (releaseMember_frame n) _ s

/-- The release of a list of records releases those and leaves the others. -/
theorem recordOf_release (n : Nat) (keys : List Nat) (s : State) (key : Nat) :
    recordOf (keys.foldl (releaseMember n) s) key = if key ∈ keys then (recordOf s key).map Record.released else recordOf s key := by
  induction keys generalizing s with
  | nil => simp
  | cons k keys ih =>
    rw [List.foldl_cons, ih]
    by_cases hk : key = k
    · subst hk
      have : recordOf (releaseMember n s key) key = (recordOf s key).map Record.released := recordOf_modRecord_self _ _ _
      cases hr : recordOf s key <;> simp [this, hr, Record.released]
    · have : recordOf (releaseMember n s k) key = recordOf s key := recordOf_modRecord_ne _ _ hk
      simp [this, hk]

/-- R121: after the release of a slot's members, its members are no members and every other record is as it was. -/
theorem recordOf_releaseAll {s : State} (hw : Table.wf s.faults = true) (n : Nat) {key : Nat} {r : Record} (hr : recordOf s key = some r) :
    recordOf (releaseAll n s) key = some (if r.incident = some n then r.released else r) := by
  have hm : key ∈ memberKeys s n ↔ r.incident = some n := by simp [memberKeys, mem_recordKeys hw, hr]
  rw [releaseAll, recordOf_release, hr]
  by_cases hi : r.incident = some n
  · rw [if_pos (hm.mpr hi), if_pos hi]; rfl
  · rw [if_neg (fun h => hi (hm.mp h)), if_neg hi]

/-- A release makes no record. -/
theorem recordOf_releaseAll_none {s : State} (n : Nat) {key : Nat} (hr : recordOf s key = none) : recordOf (releaseAll n s) key = none := by
  rw [releaseAll, recordOf_release, hr]
  split <;> rfl

/-! ## Removal (R108) -/

theorem memberGone_frame (n key : Nat) (s : State) : SlotsFrame s (memberGone n key s) := by
  unfold memberGone
  split
  · exact modSlot_frame n _ s
  · split <;> exact modSlot_frame n _ s
  · split <;> exact modSlot_frame n _ s

@[simp] theorem recordOf_memberGone (n k : Nat) (s : State) (key : Nat) : recordOf (memberGone n k s) key = recordOf s key := by
  unfold memberGone
  split
  · rfl
  · split <;> rfl
  · split <;> rfl

theorem takeRecord_frame (key : Nat) (s : State) : SlotsFrame s (takeRecord key s) := by
  have erased : SlotsFrame s { s with faults := Table.erase s.faults key } := ⟨⟨rfl, rfl, rfl, rfl, rfl, rfl, rfl, rfl, rfl⟩, rfl⟩
  unfold takeRecord
  split
  · exact .refl s
  · dsimp only
    split
    · exact erased
    · exact erased.trans (memberGone_frame _ _ _)

/-- R108: the record taken is gone, and every other record is as it was. -/
theorem recordOf_takeRecord (k : Nat) (s : State) (key : Nat) :
    recordOf (takeRecord k s) key = if key = k then none else recordOf s key := by
  have erased : recordOf { s with faults := Table.erase s.faults k } key = if key = k then none else recordOf s key := by
    by_cases hk : key = k
    · subst hk; simp [recordOf]
    · simp [recordOf, Table.find_erase_ne, hk]
  unfold takeRecord
  split
  · rename_i hr
    by_cases hk : key = k
    · subst hk; simpa using hr
    · simp [hk]
  · dsimp only
    split
    · exact erased
    · rw [recordOf_memberGone]; exact erased

theorem removeRecord_frame (key : Nat) (s : State) : SlotsFrame s (removeRecord key s) :=
  (takeRecord_frame key s).trans (queueAction_slotsFrame _ _)

/-- R108: a removed record is gone. -/
theorem recordOf_removeRecord (key : Nat) (s : State) : recordOf (removeRecord key s) key = none :=
  (queueAction_frame _ _).record_none (by rw [recordOf_takeRecord, if_pos rfl])

/-- R14: the removal of a list of records takes those and leaves the others. -/
theorem recordOf_takeAll (keys : List Nat) (s : State) (key : Nat) :
    recordOf (keys.foldl (fun s key => takeRecord key s) s) key = if key ∈ keys then none else recordOf s key := by
  induction keys generalizing s with
  | nil => simp
  | cons k keys ih =>
    rw [List.foldl_cons, ih, recordOf_takeRecord]
    by_cases h1 : key ∈ keys <;> by_cases h2 : key = k <;> simp [h1, h2]

/-- The fault table's keys go on rising under every change of records and slots. -/
theorem faultsWf_closed : EntryClosed (fun s => Table.wf s.faults = true) where
  gate _ h := h
  station _ h := h
  asset h := h
  recordInsert _ _ _ h := Table.wf_insert h _ _
  recordErase h := Table.wf_erase h _
  record _ h := Table.wf_modify h _ _
  slot _ h := h
  window _ h := h
  queue {s ts} h := by rw [Table.wf_iff, (queueAction_frame ts s).keys, ← Table.wf_iff]; exact h
  flags h := h

end Sys2Proof.Machine
end

section
/-! PROOF. DEFINE-STATION and REMOVE-STATION (R11, R12, R128). -/

namespace Sys2Proof.Machine

/-! ## Checks -/

/-- A request that no check turns away has its effect. -/
theorem answer_passes {checks : List (Bool × Result)} (s : State) (e : State × Served) (h : ∀ c ∈ checks, c.1 = false) :
    answer checks s e = e := by
  have hn : firstRefusal checks = none := by
    induction checks with
    | nil => rfl
    | cons c cs ih =>
      obtain ⟨hc, hcs⟩ := List.forall_mem_cons.mp h
      simp [firstRefusal, hc, ih hcs]
  simp [answer, hn]

theorem lineStopped_iff (s : State) (l : FieldLine) : lineStopped s l = true ↔ (lineOf s l).state = .stopped := decide_eq_true_iff

/-- An outstation on a STOPPED line, or an undefined one, does not run. -/
theorem stationRuns_false {s : State} {n : Nat}
    (h : ∀ st, stationOf s n = some st → (lineOf s st.settings.line).state = .stopped) : stationRuns s n = false := by
  unfold stationRuns
  split
  · rename_i st hst
    rw [(lineStopped_iff s _).mpr (h st hst)]; rfl
  · rfl

/-! ## The outstation table -/

@[simp] theorem stationOf_putStation_self (n : Nat) (st : Station) (s : State) : stationOf (putStation n st s) n = some st :=
  Table.find_insert_self _ _ _

theorem stationOf_putStation_ne {n m : Nat} (st : Station) (s : State) (h : m ≠ n) : stationOf (putStation n st s) m = stationOf s m :=
  Table.find_insert_ne _ _ h

/-- A change of tables after the writing of an outstation. -/
theorem putStation_eq {n : Nat} {st : Station} {s t : State} (h : TablesFrame (putStation n st s) t) :
    t = { s with
      directory := { s.directory with stations := t.directory.stations }
      faults := t.faults, incidents := t.incidents, dispatch := t.dispatch } := by
  rw [h.directory]
  exact h.eq

/-! ## DEFINE-STATION -/

/-- R11: the fields of a DEFINE-STATION in their ranges. -/
theorem parseStation_eq {b : List Byte} {v : StationSettings} (h0 : 1 ≤ u8 b 0) (h1 : u8 b 0 ≤ 120)
    (hl : decEnum fieldLines (u8 b 1) = some v.line) (ha : u8 b 2 = v.address) (ha1 : 1 ≤ v.address) (ha2 : v.address ≤ 30)
    (hp : u8 b 3 = v.priority) (hp1 : 1 ≤ v.priority) (hp2 : v.priority ≤ 4) (he : decEnum booleans (u8 b 4) = some v.enabled) :
    parseStation b = some (u8 b 0, v) := by
  simp [parseStation, hl, he, ha, hp, inRange, Config.maxStation, Config.maxAddress, h0, h1, ha1, ha2, hp1, hp2]

/-- R11: no other outstation of the line has the address. -/
theorem addressTaken_false {s : State} {n : Nat} {v : StationSettings}
    (h : ∀ e ∈ s.directory.stations, e.1 ≠ n → e.2.settings.line = v.line → e.2.settings.address ≠ v.address) :
    addressTaken s n v = false := by
  refine List.any_eq_false.mpr fun e he => ?_
  simpa using h e he

/-- R11: a DEFINE-STATION whose fields, lines and address pass the checks is taken. -/
theorem ownDefineStation_taken {b : List Byte} {s : State} {n : Nat} {v : StationSettings} (hp : parseStation b = some (n, v))
    (hl : (lineOf s v.line).state = .stopped) (hr : stationRuns s n = false) (ha : addressTaken s n v = false) :
    ownDefineStation b s = (applyStation n v s, ok) := by
  unfold ownDefineStation
  rw [hp]
  exact answer_passes s _ (by simp [(lineStopped_iff s _).mpr hl, hr, ha])

/-- R1: an undefined slot becomes defined as a new one. -/
theorem applyStation_new {s : State} {n : Nat} (h : stationOf s n = none) (v : StationSettings) :
    applyStation n v s = putStation n { settings := v } s := by
  simp [applyStation, h]

/-- A queue action, made or not, changes marks and the queue alone. -/
theorem queueAction_if_frame (c : Prop) [Decidable c] (ts : List Thing) (s : State) : MarkFrame s (if c then queueAction ts s else s) := by
  split
  · exact queueAction_frame ts s
  · exact .refl s

/-! ## A returning outstation (R128) -/

theorem restoreStation_frame (n : Nat) (s : State) : SlotsFrame s (restoreStation n s) :=
  (releaseAll_frame _ s).trans ((modSlot_frame _ _ _).trans (queueAction_slotsFrame _ _))

/-- R128: the slot of an outstation that returns is RESTORED at this second. -/
theorem restoreStation_slot (n : Nat) (s : State) : (slotOf (restoreStation n s) (stationSlot n)).state = .restored ∧
    (slotOf (restoreStation n s) (stationSlot n)).restoredAt = some (now s) := by
  let released := releaseAll (stationSlot n) s
  let slot : Slot := { slotOf released (stationSlot n) with state := .restored, restoredAt := some (now s) }
  have hs : (slotOf (restoreStation n s) (stationSlot n)).unmarked = slot.unmarked := by
    refine ((queueAction_frame _ _).slot _).trans ?_
    rw [slotOf_modSlot_self, (releaseAll_frame _ s).now]
  exact ⟨congrArg Slot.state hs, congrArg Slot.restoredAt hs⟩

/-- R128: the members of an outstation that returns are released, and every other record is as it was. -/
theorem restoreStation_record {s : State} (hw : Table.wf s.faults = true) (n : Nat) {key : Nat} {r : Record} (hr : recordOf s key = some r) :
    ∃ q, recordOf (restoreStation n s) key = some q ∧
      q.unmarked = (if r.incident = some (stationSlot n) then r.released else r).unmarked :=
  (queueAction_frame _ _).record_some (recordOf_releaseAll hw _ hr)

/-! ## DEFINE-STATION of a defined outstation -/

/-- R11: the dynamic fields of a redefinition are a new slot's when line or address change, and else stay. -/
theorem redefined_eq (st : Station) (v : StationSettings) : redefined st v =
    if ¬ (v.line = st.settings.line ∧ v.address = st.settings.address) then { settings := v, pointMap := st.pointMap }
    else { st with settings := v } := by
  unfold redefined
  rw [ite_not]

/-- R11, R128: a redefinition returns the outstation exactly when it was SILENT and line or address change. -/
theorem redefined_returns (st : Station) (v : StationSettings) : st.state = .silent ∧ (redefined st v).state ≠ .silent ↔
    ¬ (v.line = st.settings.line ∧ v.address = st.settings.address) ∧ st.state = .silent := by
  rw [redefined_eq]
  split
  · rename_i hm; simp [hm]
  · rename_i hm; simp only [hm]; tauto

/-- R128: a SILENT outstation that moves is redefined and returns; then the queue may hear of a changed class. -/
theorem applyStation_returns {s : State} {n : Nat} {st : Station} (h : stationOf s n = some st) {v : StationSettings}
    (hm : ¬ (v.line = st.settings.line ∧ v.address = st.settings.address)) (hs : st.state = .silent) :
    MarkFrame (restoreStation n (putStation n (redefined st v) s)) (applyStation n v s) := by
  simp only [applyStation, h, if_pos ((redefined_returns st v).mpr ⟨hm, hs⟩)]
  exact queueAction_if_frame _ _ _

/-- R11: any other is redefined; then the queue may hear of a changed class. -/
theorem applyStation_quiet {s : State} {n : Nat} {st : Station} (h : stationOf s n = some st) {v : StationSettings}
    (hm : ¬ (¬ (v.line = st.settings.line ∧ v.address = st.settings.address) ∧ st.state = .silent)) :
    MarkFrame (putStation n (redefined st v) s) (applyStation n v s) ∧
      (v.priority = st.settings.priority → applyStation n v s = putStation n (redefined st v) s) := by
  simp only [applyStation, h, if_neg (mt (redefined_returns st v).mp hm)]
  exact ⟨queueAction_if_frame _ _ _, fun hp => if_neg (not_not.mpr hp)⟩

/-- R11: whether it returns or not, a redefined outstation is written, and beside it records, slots and the queue alone change. -/
theorem applyStation_frame {s : State} {n : Nat} {st : Station} (h : stationOf s n = some st) (v : StationSettings) :
    TablesFrame (putStation n (redefined st v) s) (applyStation n v s) := by
  by_cases hm : ¬ (v.line = st.settings.line ∧ v.address = st.settings.address) ∧ st.state = .silent
  · exact (restoreStation_frame _ _).toTablesFrame.trans (applyStation_returns h hm.1 hm.2).tables
  · exact (applyStation_quiet h hm).1.tables

/-! ## REMOVE-STATION -/

/-- R12: the daylight source does not name the outstation. -/
theorem isGateStation_false {s : State} {n : Nat} (h : ∀ p, s.gate.source ≠ .point n p) : isGateStation s n = false := by
  unfold isGateStation
  split
  · rename_i m p hm
    exact decide_eq_false fun hn => h p (hn ▸ hm)
  · rfl

/-- R12: a REMOVE-STATION that passes its checks is taken. -/
theorem ownRemoveStation_taken {b : List Byte} {s : State} {st : Station} (h1 : 1 ≤ u8 b 0) (h2 : u8 b 0 ≤ 120)
    (hst : stationOf s (u8 b 0) = some st) (hl : (lineOf s st.settings.line).state = .stopped) (hm : st.pointMap = [])
    (hg : isGateStation s (u8 b 0) = false) : ownRemoveStation b s = (dropStation (u8 b 0) s, ok) := by
  have hr : inRange 1 Config.maxStation (u8 b 0) = true := (inRange_iff _ _ _).mpr ⟨h1, h2⟩
  simp only [ownRemoveStation, hr, hst, Bool.not_true, Bool.false_eq_true, if_false]
  exact answer_passes s _ (by simp [(lineStopped_iff s _).mpr hl, hm, hg])

/-- R12: the outstation is undefined, every other slot of the table is as it was, and its incident slot is FREE. -/
theorem dropStation_spec (n : Nat) (s : State) :
    dropStation n s = { s with
      directory := (dropStation n s).directory, faults := (dropStation n s).faults, incidents := (dropStation n s).incidents
      dispatch := (dropStation n s).dispatch } ∧
    stationOf (dropStation n s) n = none ∧ (∀ m, m ≠ n → stationOf (dropStation n s) m = stationOf s m) ∧
    (slotOf (dropStation n s) (stationSlot n)).unmarked = {} := by
  let erased : State := { s with directory := { s.directory with stations := Table.erase s.directory.stations n } }
  have hq : MarkFrame (freeSlot (stationSlot n) erased) (dropStation n s) := queueAction_frame _ _
  have hf : TablesFrame erased (dropStation n s) := (freeSlot_frame _ _).toTablesFrame.trans hq.tables
  refine ⟨hf.eq_directory, ?_, fun m hm => ?_, ?_⟩
  · rw [hf.stationOf]; exact Table.find_erase_self _ _
  · rw [hf.stationOf]; exact Table.find_erase_ne _ hm
  · rw [hq.slot, slotOf_freeSlot_self]; rfl

end Sys2Proof.Machine

namespace Sys2Proof.Proofs

open Sys2Proof.Machine

/-- Settles O45. A redefinition is written into the table, and what follows it is the return of a SILENT outstation or a queue action. -/
theorem stationsAreDefinedAndRemoved : Obligations.StationsAreDefinedAndRemoved := by
  refine ⟨fun s f v h h0 h1 hl ha ha1 ha2 hp hp1 hp2 he hline haddr => ?_, fun s f st h h1 h2 hst hl hm hg => ?_⟩
  · -- DEFINE-STATION, of an undefined and of a defined slot
    have hparse := parseStation_eq h0 h1 hl ha ha1 ha2 hp hp1 hp2 he
    have taken (hr : stationRuns s (u8 f.body 0) = false) :
        exec .defineStation s = .next (withReply f .ok [] .nothing (applyStation (u8 f.body 0) v s)) :=
      exec_taken h (ownDefineStation_taken hparse hline hr (addressTaken_false haddr))
    refine ⟨fun hn => ?_, fun st hst hstop hw => ?_⟩
    · refine ⟨_, taken (stationRuns_false (by simp [hn])), ?_⟩
      rw [applyStation_new hn]
      exact ⟨rfl, stationOf_putStation_self _ _ _, fun m hm => stationOf_putStation_ne _ _ hm⟩
    · have hf := applyStation_frame hst v
      refine ⟨_, taken (stationRuns_false (by simp [hst, hstop])), putStation_eq hf, ?_, fun m hm => ?_, fun hmoved hsil => ?_, fun hq => ?_⟩
      · rw [hf.stationOf, stationOf_putStation_self, redefined_eq]
      · rw [hf.stationOf, stationOf_putStation_ne _ _ hm]
      · have hk := applyStation_returns hst hmoved hsil
        obtain ⟨hstate, hat⟩ := restoreStation_slot (u8 f.body 0) (putStation (u8 f.body 0) (redefined st v) s)
        refine ⟨(congrArg Slot.state (hk.slot _)).trans hstate, (congrArg Slot.restoredAt (hk.slot _)).trans hat, fun key r hr => ?_⟩
        obtain ⟨q, hq, hqr⟩ := restoreStation_record (s := putStation (u8 f.body 0) (redefined st v) s) hw (u8 f.body 0) hr
        obtain ⟨q', hq', hqq⟩ := hk.record_some hq
        refine ⟨q', hq', hqq.trans (hqr.trans ?_)⟩
        split <;> rfl
      · obtain ⟨hk, hsame⟩ := applyStation_quiet hst hq
        exact ⟨hk.record, hk.slot, fun hp => by rw [hsame hp]; rfl⟩
  · -- REMOVE-STATION
    obtain ⟨hframe, hnone, hothers, hslot⟩ := dropStation_spec (u8 f.body 0) s
    exact ⟨_, exec_taken h (ownRemoveStation_taken h1 h2 hst hl hm (isGateStation_false hg)), hframe, hnone, hothers, hslot⟩

end Sys2Proof.Proofs
end

section
/-! PROOF. DEFINE-ASSET and REMOVE-ASSET (R13, R14, R2 to R6). -/

namespace Sys2Proof.Machine

/-! ## The fields of DEFINE-ASSET -/

/-- R3, R4: the roles and the kind-dependent settings are those that the kind allows. -/
def KindAllows (v : AssetSettings) : Prop :=
  match v.kind with
  | .cabinet => v.points.main = none ∧ v.points.aux = none ∧ v.points.detect = none ∧
      (v.points.door.isSome = true ∨ v.points.supply.isSome = true) ∧ v.lampCount = 0 ∧ v.doubling = false
  | .lampCircuit => v.points.main.isSome = true ∧ v.points.aux = none ∧ v.points.door = none ∧ v.points.supply = none ∧
      v.points.detect = none ∧ 1 ≤ v.lampCount ∧ v.lampCount ≤ 60 ∧ v.doubling = false
  | .loop => v.points.main.isSome = true ∧ v.points.aux = none ∧ v.points.door = none ∧ v.points.supply = none ∧ v.feeder = 0 ∧
      v.lampCount = 0
  | .sign => v.points.main.isSome = true ∧ v.points.supply = none ∧ v.points.detect = none ∧ v.feeder = 0 ∧ v.lampCount = 0 ∧
      v.doubling = false

/-- What a kind allows passes the model's tests of roles and settings. -/
theorem kindAllows_fits {v : AssetSettings} (h : KindAllows v) : kindFits v = true ∧ rolesFit v.kind v.points = true := by
  unfold KindAllows at h
  cases hk : v.kind <;> simp only [hk] at h <;> simp [kindFits, rolesFit, hk, h]

/-- R13, R176: the body of a DEFINE-ASSET carries these settings, which an asset may hold. -/
structure CarriesAsset (b : List Byte) (v : AssetSettings) : Prop where
  number : u16 b 0 ≤ 4095
  kind : decEnum assetKinds (u8 b 2) = some v.kind
  station : u8 b 3 = v.station ∧ 1 ≤ v.station ∧ v.station ≤ 120
  points : ∀ e ∈ [(4, v.points.main), (5, v.points.aux), (6, v.points.door), (7, v.points.supply), (8, v.points.detect)],
    u8 b e.1 = e.2.getD 255 ∧ ∀ p, e.2 = some p → p ≤ 63
  profile : u8 b 9 = v.profile ∧ v.profile ≤ 15
  priority : u8 b 10 = v.priority ∧ 1 ≤ v.priority ∧ v.priority ≤ 4
  area : u8 b 11 = v.area ∧ v.area ≤ 64
  feeder : u8 b 12 = v.feeder ∧ v.feeder ≤ 64
  lampCount : u8 b 13 = v.lampCount
  doubling : decEnum booleans (u8 b 14) = some v.doubling
  label : u8 b 15 ≤ 12 ∧ v.label = (b.drop 16).take (u8 b 15) ∧ ∀ ch ∈ v.label, 0x20 ≤ ch.toNat ∧ ch.toNat ≤ 0x7E
  allowed : KindAllows v
  distinct : ((rolePoints v.points).map Prod.fst).Nodup

/-- R176: a role point in its range, or the mark of an absent role, is read. -/
theorem parsePoint_eq {n : Nat} {o : Option Nat} (h : n = o.getD 255 ∧ ∀ p, o = some p → p ≤ 63) : parsePoint n = some o := by
  obtain ⟨rfl, ho⟩ := h
  cases o with
  | none => rfl
  | some p => exact if_pos (ho p rfl)

theorem parsePoints_eq {b : List Byte} {v : AssetSettings} (h : CarriesAsset b v) : parsePoints b = some v.points := by
  simp [parsePoints, parsePoint_eq (h.points (4, v.points.main) (by simp)), parsePoint_eq (h.points (5, v.points.aux) (by simp)),
    parsePoint_eq (h.points (6, v.points.door) (by simp)), parsePoint_eq (h.points (7, v.points.supply) (by simp)),
    parsePoint_eq (h.points (8, v.points.detect) (by simp))]

theorem CarriesAsset.fits {b : List Byte} {v : AssetSettings} (h : CarriesAsset b v) : assetFits v = true := by
  obtain ⟨hkind, hroles⟩ := kindAllows_fits h.allowed
  have hlen : v.label.length ≤ 12 := by
    rw [h.label.2.1]; exact (List.length_take_le _ _).trans h.label.1
  have hdistinct : pointsDistinct v.points = true := decide_eq_true h.distinct
  simp only [assetFits, hkind, hroles, hdistinct, inRange_iff, Bool.and_eq_true, decide_eq_true_eq, List.all_eq_true, and_true, Nat.zero_le,
    true_and, Config.maxStation, Config.maxArea]
  exact ⟨⟨⟨⟨⟨⟨h.station.2, h.profile.2⟩, h.priority.2⟩, h.area.2⟩, h.feeder.2⟩, hlen⟩, h.label.2.2⟩

/-- R13: the settings that a body carries are read. -/
theorem parseAsset_eq {b : List Byte} {v : AssetSettings} (h : CarriesAsset b v) : parseAsset b = some (u16 b 0, v) := by
  have hr : inRange 0 Config.maxAsset (u16 b 0) = true := (inRange_iff _ _ _).mpr ⟨Nat.zero_le _, h.number⟩
  have hl : inRange 0 12 (u8 b 15) = true := (inRange_iff _ _ _).mpr ⟨Nat.zero_le _, h.label.1⟩
  simp only [parseAsset, h.kind, parsePoints_eq h, h.doubling, h.station.1, h.profile.1, h.priority.1, h.area.1, h.feeder.1, h.lampCount,
    ← h.label.2.1, hr, hl, h.fits, Bool.and_self, if_true]

/-! ## Checks -/

/-- R13: no other asset holds a given point. -/
theorem pointTaken_false {st : Station} {a : Nat} {p : RolePoints}
    (h : ∀ e ∈ rolePoints p, ∀ o role, Table.find st.pointMap e.1 = some (o, role) → o = a) : pointTaken st a p = false := by
  refine List.any_eq_false.mpr fun e he => ?_
  split
  · rename_i o role hf
    simp [h e he o role hf]
  · simp

/-- R13: no other CABINET supplies the feeder. -/
theorem feederTaken_false {s : State} {a : Nat} {v : AssetSettings}
    (h : v.kind = .cabinet → v.feeder ≠ 0 → ∀ e ∈ s.directory.assets, e.1 ≠ a → e.2.settings.kind = .cabinet →
      e.2.settings.feeder ≠ v.feeder) : feederTaken s a v = false := by
  unfold feederTaken
  by_cases hf : suppliedFeeder v = 0
  · simp [hf]
  have hv : v.kind = .cabinet := by
    by_contra hk
    exact hf (if_neg hk)
  have hs : suppliedFeeder v = v.feeder := if_pos hv
  rw [Bool.and_eq_false_iff]
  refine .inr (List.any_eq_false.mpr fun e he => ?_)
  simp only [Bool.and_eq_true, decide_eq_true_eq, not_and]
  intro hne heq
  have hk : e.2.settings.kind = .cabinet := by
    by_contra hk
    exact hf (heq ▸ if_neg hk)
  exact h hv (hs ▸ hf) e he hne hk ((if_pos hk).symm.trans (heq.trans hs))

/-- R13, R14: the line of the asset's present outstation does not run. -/
theorem assetRuns_false {s : State} {a : Nat}
    (h : ∀ x y, assetOf s a = some x → stationOf s x.settings.station = some y → (lineOf s y.settings.line).state = .stopped) :
    assetRuns s a = false := by
  unfold assetRuns
  split
  · rename_i x hx
    exact stationRuns_false fun y hy => h x y hx hy
  · rfl

/-- R13: a DEFINE-ASSET that passes its checks is taken. -/
theorem ownDefineAsset_taken {b : List Byte} {s : State} {a : Nat} {v : AssetSettings} {st : Station} (hp : parseAsset b = some (a, v))
    (hst : stationOf s v.station = some st) (h1 : stationRuns s v.station = false) (h2 : assetRuns s a = false)
    (h3 : pointTaken st a v.points = false) (h4 : feederTaken s a v = false) : ownDefineAsset b s = (applyAsset a v s, ok) := by
  simp only [ownDefineAsset, hp, hst]
  exact answer_passes s _ (by simp [h1, h2, h3, h4])

/-- R14: a REMOVE-ASSET of a defined asset on a STOPPED line is taken. -/
theorem ownRemoveAsset_taken {b : List Byte} {s : State} {x : Asset} (ha : u16 b 0 ≤ 4095) (hx : assetOf s (u16 b 0) = some x)
    (hr : assetRuns s (u16 b 0) = false) : ownRemoveAsset b s = (dropAsset (u16 b 0) x.settings s, ok) := by
  have hin : inRange 0 Config.maxAsset (u16 b 0) = true := (inRange_iff _ _ _).mpr ⟨Nat.zero_le _, ha⟩
  simp only [ownRemoveAsset, hin, hx, Bool.not_true, Bool.false_eq_true, if_false]
  exact answer_passes s _ (by simp [hr])

/-! ## Point maps (R2) -/

/-- Writing entries for a list of points leaves every other point's entry. -/
theorem find_insertAll_other (a : Nat) (l : List (Nat × Role)) (m : Table (Nat × Role)) {n : Nat} (h : n ∉ l.map Prod.fst) :
    Table.find (l.foldl (fun m e => Table.insert m e.1 (a, e.2)) m) n = Table.find m n := by
  induction l generalizing m with
  | nil => rfl
  | cons e l ih =>
    simp only [List.map_cons, List.mem_cons, not_or] at h
    rw [List.foldl_cons, ih _ h.2, Table.find_insert_ne _ _ h.1]

/-- Writing entries for a list of points fills each of them. -/
theorem find_insertAll_mem (a : Nat) (l : List (Nat × Role)) (m : Table (Nat × Role)) (h : (l.map Prod.fst).Nodup) {e : Nat × Role}
    (he : e ∈ l) : Table.find (l.foldl (fun m e => Table.insert m e.1 (a, e.2)) m) e.1 = some (a, e.2) := by
  induction l generalizing m with
  | nil => cases he
  | cons d l ih =>
    obtain ⟨hd, hl⟩ := List.nodup_cons.mp h
    rcases List.mem_cons.mp he with rfl | he
    · rw [List.foldl_cons, find_insertAll_other a l _ hd, Table.find_insert_self]
    · exact ih _ hl he

/-- R2, R14: an outstation without the point map entries of an asset. -/
def Station.without (a : Nat) (st : Station) : Station := { st with pointMap := st.pointMap.filter (fun e => decide (e.2.1 ≠ a)) }

theorem Station.find_without {st : Station} (hw : Table.wf st.pointMap = true) (a p : Nat) :
    Table.find (st.without a).pointMap p = (Table.find st.pointMap p).filter (fun e => decide (e.1 ≠ a)) :=
  Table.find_filter hw (fun e => decide (e.1 ≠ a)) p

/-! ## The writing of a definition -/

@[simp] theorem assetOf_writeAsset_self (a : Nat) (v : AssetSettings) (s : State) : assetOf (writeAsset a v s) a = some { settings := v } :=
  Table.find_insert_self _ _ _

theorem assetOf_writeAsset_ne {a n : Nat} (v : AssetSettings) (s : State) (h : n ≠ a) : assetOf (writeAsset a v s) n = assetOf s n :=
  Table.find_insert_ne _ _ h

theorem stationOf_writeAsset {a : Nat} {v : AssetSettings} {s : State} {st : Station} (h : stationOf s v.station = some st) :
    stationOf (writeAsset a v s) v.station = some { st with pointMap := fillPoints a v.points st.pointMap } :=
  (stationOf_modStation_self _ _ _).trans (congrArg (Option.map _) h)

theorem writeAsset_frame (a : Nat) (v : AssetSettings) {s t : State} (h : TablesFrame s t) : TablesFrame (writeAsset a v s) (writeAsset a v t) :=
  ⟨h.timebase, h.gate, by unfold writeAsset modStation; rw [h.directory], h.lines, h.intake, h.link, h.store, h.tick, h.pending⟩

@[simp] theorem recordOf_writeAsset (a : Nat) (v : AssetSettings) (s : State) (key : Nat) : recordOf (writeAsset a v s) key = recordOf s key :=
  rfl

/-! ## The removal of an asset (R14) -/

@[simp] theorem assetOf_eraseAsset_self (a : Nat) (v : AssetSettings) (s : State) : assetOf (eraseAsset a v s) a = none :=
  Table.find_erase_self _ _

theorem assetOf_eraseAsset_ne {a n : Nat} (v : AssetSettings) (s : State) (h : n ≠ a) : assetOf (eraseAsset a v s) n = assetOf s n :=
  Table.find_erase_ne _ h

theorem stationOf_eraseAsset_self (a : Nat) (v : AssetSettings) (s : State) :
    stationOf (eraseAsset a v s) v.station = (stationOf s v.station).map (Station.without a) :=
  stationOf_modStation_self _ _ _

theorem stationOf_eraseAsset_ne (a : Nat) {v : AssetSettings} (s : State) {n : Nat} (h : n ≠ v.station) :
    stationOf (eraseAsset a v s) n = stationOf s n :=
  stationOf_modStation_ne _ _ h

theorem freeSupplied_frame (f : Nat) (s : State) : SlotsFrame s (freeSupplied f s) := by
  unfold freeSupplied
  split
  · exact .refl s
  · exact (releaseAll_frame _ s).trans (freeSlot_frame _ _)

/-- R14 step 4: the freeing makes no record. -/
theorem recordOf_freeSupplied_none {s : State} (f : Nat) {key : Nat} (h : recordOf s key = none) : recordOf (freeSupplied f s) key = none := by
  unfold freeSupplied
  split
  · exact h
  · rw [recordOf_freeSlot, recordOf_releaseAll_none _ h]

/-- R14: the state in which an asset's records are gone and the feeder that it supplies is free; its entry still stands. -/
def recordsDropped (a : Nat) (v : AssetSettings) (s : State) : State :=
  freeSupplied (suppliedFeeder v) ((assetRecords s a).foldl (fun s key => takeRecord key s) s)

theorem recordsDropped_frame (a : Nat) (v : AssetSettings) (s : State) : SlotsFrame s (recordsDropped a v s) :=
  (foldl_slotsFrame (fun s key => takeRecord_frame key s) _ s).trans (freeSupplied_frame _ _)

/-- After the records' removal the entry is erased; what follows is a queue action. -/
theorem dropAsset_marks (a : Nat) (v : AssetSettings) (s : State) : MarkFrame (eraseAsset a v (recordsDropped a v s)) (dropAsset a v s) :=
  queueAction_frame _ _

/-- The removal of an asset changes the directory as the erasing of its entry does. -/
theorem dropAsset_frame (a : Nat) (v : AssetSettings) (s : State) : TablesFrame (eraseAsset a v s) (dropAsset a v s) := by
  obtain ⟨⟨h1, h2, h3, h4, h5, h6, h7, h8, h9⟩, -⟩ := recordsDropped_frame a v s
  have erased : TablesFrame (eraseAsset a v s) (eraseAsset a v (recordsDropped a v s)) :=
    ⟨h1, h2, by unfold eraseAsset modStation; rw [h3], h4, h5, h6, h7, h8, h9⟩
  exact erased.trans (dropAsset_marks a v s).tables

/-- R14: an outstation after the removal of an asset: the asset's own loses the asset's point map entries. -/
theorem stationOf_dropAsset {s : State} {n : Nat} {st : Station} (h : stationOf s n = some st) (a : Nat) (v : AssetSettings) :
    stationOf (dropAsset a v s) n =
      some { st with pointMap := if v.station = n then (st.without a).pointMap else st.pointMap } := by
  rw [(dropAsset_frame a v s).stationOf]
  split
  · rename_i hn
    subst hn
    rw [stationOf_eraseAsset_self, h]; rfl
  · rename_i hn
    rw [stationOf_eraseAsset_ne _ _ (Ne.symm hn), h]

theorem dropAsset_storms (a : Nat) (v : AssetSettings) (s : State) : (dropAsset a v s).incidents.storms = s.incidents.storms :=
  (dropAsset_marks a v s).storms.trans (recordsDropped_frame a v s).storms

/-- R14: the keys whose records an asset's removal takes. -/
theorem mem_assetRecords {s : State} {a key : Nat} {r : Record} (hr : recordOf s key = some r) (ha : keyAsset key = a) :
    key ∈ assetRecords s a := by
  simp only [assetRecords, recordKeys, List.mem_map, List.mem_filter, Prod.exists]
  exact ⟨key, r, ⟨Table.mem_of_find hr, decide_eq_true ha⟩, rfl⟩

theorem not_mem_assetRecords {s : State} {a key : Nat} (ha : keyAsset key ≠ a) : key ∉ assetRecords s a := by
  simp only [assetRecords, recordKeys, List.mem_map, List.mem_filter, Prod.exists]
  rintro ⟨k, r, ⟨-, hk⟩, rfl⟩
  exact ha (of_decide_eq_true hk)

/-- R14: none of the asset's records stands after its removal. -/
theorem dropAsset_noRecord {a key : Nat} (v : AssetSettings) (s : State) (ha : keyAsset key = a) : recordOf (dropAsset a v s) key = none := by
  refine (dropAsset_marks a v s).record_none (recordOf_freeSupplied_none _ ?_)
  rw [recordOf_takeAll]
  cases hr : recordOf s key with
  | none => exact ite_self _
  | some r => exact if_pos (mem_assetRecords hr ha)

/-- R14 step 4: the slot of the feeder that a CABINET supplies is FREE after the CABINET's removal. -/
theorem dropAsset_slot (a : Nat) {v : AssetSettings} (s : State) (hf : suppliedFeeder v ≠ 0) :
    (slotOf (dropAsset a v s) (feederSlot (suppliedFeeder v))).unmarked = {} := by
  refine ((dropAsset_marks a v s).slot _).trans (congrArg Slot.unmarked (?_ : _ = ({} : Slot)))
  show slotOf (recordsDropped a v s) _ = {}
  rw [recordsDropped, freeSupplied, if_neg hf, slotOf_freeSlot_self]

/-- R14 step 4: the members of the feeder's slot that are left are released. -/
theorem dropAsset_released {a : Nat} {v : AssetSettings} {s : State} (hf : suppliedFeeder v ≠ 0) (hw : Table.wf s.faults = true) {key : Nat}
    {r : Record} (hr : recordOf s key = some r) (ha : keyAsset key ≠ a) (hi : r.incident = some (feederSlot (suppliedFeeder v))) :
    ∃ q, recordOf (dropAsset a v s) key = some q ∧ q.unmarked = r.released.unmarked := by
  refine (dropAsset_marks a v s).record_some (show recordOf (recordsDropped a v s) key = some r.released from ?_)
  have hw' : Table.wf ((assetRecords s a).foldl (fun s key => takeRecord key s) s).faults = true :=
    foldl_closed (P := fun s => Table.wf s.faults = true) (fun s key h => takeRecord_closed faultsWf_closed key h) _ s hw
  have hr' : recordOf ((assetRecords s a).foldl (fun s key => takeRecord key s) s) key = some r := by
    rw [recordOf_takeAll, if_neg (not_mem_assetRecords ha), hr]
  rw [recordsDropped, freeSupplied, if_neg hf, recordOf_freeSlot, recordOf_releaseAll hw' _ hr', if_pos hi]

theorem conditionCode_lt (c : Condition) : conditionCode c < 16 := by cases c <;> decide

/-- R88: the asset and the condition code of a record key. -/
@[simp] theorem keyAsset_recordKey (a : Nat) (c : Condition) : keyAsset (recordKey a c) = a := by
  have := conditionCode_lt c
  unfold keyAsset recordKey
  omega

end Sys2Proof.Machine

namespace Sys2Proof.Proofs

open Sys2Proof.Machine

/-- Settles O46. A definition is written into the directory, over what the removal of an old one left; a removal erases the entry, and the rest is
the removal of its records and the freeing of its feeder. -/
theorem assetsAreDefinedAndRemoved : Obligations.AssetsAreDefinedAndRemoved := by
  constructor
  · -- DEFINE-ASSET
    intro s f v st h hn hk hs hs1 hs2 hpts hpf hpf2 hpr hpr1 hpr2 har har2 hfe hfe2 hlc hdb hll hlab hch hallow hdist hst hstop hwf hfree hsup
      hold
    have hb : CarriesAsset f.body v := ⟨hn, hk, ⟨hs, hs1, hs2⟩, hpts, ⟨hpf, hpf2⟩, ⟨hpr, hpr1, hpr2⟩, ⟨har, har2⟩, ⟨hfe, hfe2⟩, hlc, hdb,
      ⟨hll, hlab, hch⟩, hallow, hdist⟩
    have taken := exec_taken (c := .defineAsset) h (ownDefineAsset_taken (parseAsset_eq hb) hst
      (stationRuns_false (by simp [hst, hstop])) (assetRuns_false hold) (pointTaken_false hfree) (feederTaken_false hsup))
    generalize u16 f.body 0 = a at *
    cases hx : assetOf s a with
    | none =>
      have ha : applyAsset a v s = writeAsset a v s := by simp [applyAsset, hx]
      rw [ha] at taken
      exact ⟨_, fillPoints a v.points st.pointMap, taken, rfl, assetOf_writeAsset_self _ _ _, fun n hn => assetOf_writeAsset_ne _ _ hn,
        stationOf_writeAsset hst, fun e he => find_insertAll_mem _ _ _ hdist he,
        fun _ => ⟨rfl, fun p hp => find_insertAll_other _ _ _ hp⟩, fun x hx => nomatch hx⟩
    | some x =>
      have ha : applyAsset a v s = writeAsset a v (dropAsset a x.settings s) := by simp [applyAsset, hx]
      rw [ha] at taken
      have hf := dropAsset_frame a x.settings s
      have hstation := stationOf_writeAsset (a := a) (stationOf_dropAsset hst a x.settings)
      refine ⟨_, _, taken, (writeAsset_frame a v hf).eq_directory, assetOf_writeAsset_self _ _ _, fun n hn => ?_,
        hstation, fun e he => find_insertAll_mem _ _ _ hdist he,
        fun hnone => (nomatch (show some x = none from hnone)), fun y hy => ⟨fun c => ?_, fun hxs p hp => ?_⟩⟩
      · rw [assetOf_writeAsset_ne _ _ hn, hf.assetOf, assetOf_eraseAsset_ne _ _ hn]
      · rw [recordOf_writeAsset, dropAsset_noRecord _ _ (keyAsset_recordKey a c)]
      · cases hy
        rw [fillPoints, find_insertAll_other _ _ _ hp, if_pos hxs, Station.find_without hwf]
  · -- REMOVE-ASSET
    intro s f x st h hn hx hst hstop
    have hruns : assetRuns s (u16 f.body 0) = false := assetRuns_false fun y z hy hz => by
      cases hx.symm.trans hy
      cases hst.symm.trans hz
      exact hstop
    have taken := exec_taken (c := .removeAsset) h (ownRemoveAsset_taken hn hx hruns)
    generalize u16 f.body 0 = a at *
    have hf := dropAsset_frame a x.settings s
    refine ⟨_, taken, hf.eq_directory, ?_, fun n hn => ?_, ?_, ?_, fun n hn => ?_, ⟨(st.without a).pointMap, ?_, fun hw p => ?_⟩, fun c => ?_, ?_,
      fun hk hfe hw => ?_⟩
    · rw [hf.assetOf, assetOf_eraseAsset_self]
    · rw [hf.assetOf, assetOf_eraseAsset_ne _ _ hn]
    · rw [hf.directory]; rfl
    · rw [hf.directory]; rfl
    · rw [hf.stationOf, stationOf_eraseAsset_ne _ _ hn]
    · rw [hf.stationOf, stationOf_eraseAsset_self, hst]; rfl
    · exact Station.find_without hw a p
    · exact dropAsset_noRecord _ _ (keyAsset_recordKey a c)
    · exact dropAsset_storms _ _ _
    · have hsf : suppliedFeeder x.settings = x.settings.feeder := if_pos hk
      rw [← hsf] at hfe ⊢
      exact ⟨dropAsset_slot a s hfe, fun key r hr hne hi => dropAsset_released hfe hw hr hne hi⟩

end Sys2Proof.Proofs
end

section
/-! PROOF. The bodies of SET-PROFILE and SET-AREA (R15, R16, R177): their ranges, and the profile that READ-PROFILE gives back. -/

namespace Sys2Proof.Machine

/-! ## Bytes of a body -/

theorem u8_lt (b : List Byte) (i : Nat) : u8 b i < 256 := (b.getD i 0#8).isLt

theorem u16_lt (b : List Byte) (i : Nat) : u16 b i < 65536 := by
  have := u8_lt b i
  have := u8_lt b (i + 1)
  unfold u16
  omega

/-- R176: a one-byte field is encoded as the byte it was carried in. -/
theorem enc8_u8 (b : List Byte) (i : Nat) : enc8 (u8 b i) = [b.getD i 0#8] := by
  simp [enc8, u8]

/-- R176: a two-byte field is encoded as the bytes it was carried in. -/
theorem enc16_u16 (b : List Byte) (i : Nat) : enc16 (u16 b i) = [b.getD i 0#8, b.getD (i + 1) 0#8] := by
  have h := u8_lt b (i + 1)
  have high : BitVec.ofNat 8 (u16 b i / 256) = b.getD i 0#8 := by
    rw [show u16 b i / 256 = u8 b i by unfold u16; omega]
    simp [u8]
  have low : BitVec.ofNat 8 (u16 b i) = b.getD (i + 1) 0#8 := by
    refine BitVec.eq_of_toNat_eq ?_
    rw [BitVec.toNat_ofNat]
    show u16 b i % 2 ^ 8 = u8 b (i + 1)
    unfold u16
    omega
  rw [enc16, high, low]

/-- R176: a signed field is encoded as the bytes it was carried in. -/
theorem encS16_s16 (b : List Byte) (i : Nat) : encS16 (s16 b i) = [b.getD i 0#8, b.getD (i + 1) 0#8] := by
  have h := u16_lt b i
  have hs : (s16 b i % 65536).toNat = u16 b i := by
    unfold s16
    split <;> omega
  rw [encS16, hs, enc16_u16]

/-- R176: a byte of at most 1 carries a truth value. -/
theorem decEnum_booleans {n : Nat} (h : n ≤ 1) : decEnum booleans n = some (decide (n = 1)) := by
  interval_cases n <;> rfl

theorem decEnum_booleans_none {n : Nat} (h : ¬ n ≤ 1) : decEnum booleans n = none :=
  List.getElem?_eq_none (Nat.lt_of_not_le h)

/-- R176: a truth value is encoded as the byte it was carried in. -/
theorem encBool_u8 {b : List Byte} {i : Nat} (h : u8 b i ≤ 1) : encBool (decide (u8 b i = 1)) = [b.getD i 0#8] := by
  rw [← enc8_u8, encBool]
  congr 1
  rcases Nat.le_one_iff_eq_zero_or_eq_one.mp h with h | h <;> rw [h] <;> rfl

/-! ## SET-PROFILE -/

/-- R15, R177: the profile that a body of SET-PROFILE carries. -/
def carriedProfile (b : List Byte) : Profile :=
  { confirmFail := u16 b 1, confirmBand := u16 b 3, clearTime := u16 b 5, chatterCount := u8 b 7, chatterWindow := u16 b 8
    edgeAllowance := u8 b 10, escalateAfter := u16 b 11, immediate := decide (u8 b 13 = 1), autoClose := decide (u8 b 14 = 1)
    failLow := s16 b 15, low := s16 b 17, high := s16 b 19, failHigh := s16 b 21, trackShift := u8 b 23, learnFloor := u16 b 24
    dayLimit := u16 b 26, pixelLimit := u16 b 28, releaseWait := u16 b 30 }

/-- R7: every field of a SET-PROFILE body is in its range, and the orderings hold. -/
def ProfileInRange (b : List Byte) : Prop :=
  u8 b 0 ≤ 15 ∧ (1 ≤ u16 b 1 ∧ u16 b 1 ≤ 3600) ∧ 1 ≤ u16 b 3 ∧ (1 ≤ u16 b 5 ∧ u16 b 5 ≤ 3600) ∧ 2 ≤ u8 b 7 ∧
    (10 ≤ u16 b 8 ∧ u16 b 8 ≤ 3600) ∧ u8 b 10 ≤ 15 ∧ (u16 b 11 = 0 ∨ 60 ≤ u16 b 11) ∧ u8 b 13 ≤ 1 ∧ u8 b 14 ≤ 1 ∧
    (-10000 ≤ s16 b 15 ∧ s16 b 15 ≤ -2) ∧ (s16 b 15 < s16 b 17 ∧ s16 b 17 ≤ -1) ∧ (1 ≤ s16 b 19 ∧ s16 b 19 ≤ 32766) ∧
    s16 b 19 < s16 b 21 ∧ (2 ≤ u8 b 23 ∧ u8 b 23 ≤ 8) ∧ 1 ≤ u16 b 24 ∧ 1 ≤ u16 b 28 ∧ (10 ≤ u16 b 30 ∧ u16 b 30 ≤ 3600)

theorem s16_le (b : List Byte) (i : Nat) : s16 b i ≤ 32767 := by
  have := u16_lt b i
  unfold s16
  split <;> omega

/-- R7: the model's tests of number and profile are the ranges and orderings; what a byte or two can hold is no limit. -/
theorem profileFits_iff (b : List Byte) : (u8 b 13 ≤ 1 ∧ u8 b 14 ≤ 1 ∧ (inRange 0 15 (u8 b 0) && profileFits (carriedProfile b)) = true) ↔
    ProfileInRange b := by
  have := u16_lt b 3
  have := u8_lt b 7
  have := u16_lt b 11
  have := u16_lt b 24
  have := u16_lt b 26
  have := u16_lt b 28
  have := s16_le b 21
  simp only [profileFits, Bool.and_eq_true, Bool.or_eq_true, inRange_iff, decide_eq_true_eq]
  simp only [carriedProfile, ProfileInRange]
  omega

theorem parseProfile_inRange {b : List Byte} (h : ProfileInRange b) : parseProfile b = some (u8 b 0, carriedProfile b) := by
  obtain ⟨h13, h14, hfits⟩ := (profileFits_iff b).mpr h
  simp only [parseProfile, decEnum_booleans h13, decEnum_booleans h14]
  exact if_pos hfits

theorem parseProfile_outOfRange {b : List Byte} (h : ¬ ProfileInRange b) : parseProfile b = none := by
  by_cases h13 : u8 b 13 ≤ 1
  · by_cases h14 : u8 b 14 ≤ 1
    · simp only [parseProfile, decEnum_booleans h13, decEnum_booleans h14]
      exact if_neg fun hfits => h ((profileFits_iff b).mp ⟨h13, h14, hfits⟩)
    · simp [parseProfile, decEnum_booleans_none h14]
  · simp [parseProfile, decEnum_booleans_none h13]

/-- R177: the 18 fields come back in the bytes that carried them. -/
theorem encProfile_carried {b : List Byte} (hlen : b.length = 32) (h13 : u8 b 13 ≤ 1) (h14 : u8 b 14 ≤ 1) :
    encProfile (carriedProfile b) = b.drop 1 := by
  have bytes : b.drop 1 = (List.range 31).map (fun i => b.getD (i + 1) 0#8) := by
    refine List.ext_getElem (by simp [hlen]) fun i h1 h2 => ?_
    have : i + 1 < b.length := by simp at h1; omega
    simp [this]
  rw [bytes]
  simp only [encProfile, carriedProfile, enc8_u8, enc16_u16, encS16_s16, encBool_u8 h13, encBool_u8 h14, List.range, List.range.loop,
    List.map_cons, List.map_nil, List.cons_append, List.nil_append, Nat.reduceAdd]

theorem ownSetProfile_taken {b : List Byte} (s : State) (h : ProfileInRange b) :
    ownSetProfile b s = (applyProfile (u8 b 0) (carriedProfile b) s, ok) := by
  simp [ownSetProfile, parseProfile_inRange h]

theorem ownSetProfile_refused {b : List Byte} (s : State) (h : ¬ ProfileInRange b) : ownSetProfile b s = (s, refuse .badValue) := by
  simp [ownSetProfile, parseProfile_outOfRange h]

/-! ## SET-AREA -/

/-- R9, R16: the fields of a SET-AREA body are in their ranges. -/
def AreaInRange (b : List Byte) : Prop :=
  1 ≤ u8 b 0 ∧ u8 b 0 ≤ 64 ∧ 1 ≤ u8 b 5 ∧ u8 b 5 ≤ 4 ∧
    ((u16 b 1 = 0 ∧ u16 b 3 = 0) ∨ (3 ≤ u16 b 1 ∧ u16 b 1 ≤ 500 ∧ u16 b 3 < u16 b 1))

/-- R9: the model's tests of a SET-AREA body are the ranges. -/
theorem areaFits_iff (b : List Byte) :
    (inRange 1 Config.maxArea (u8 b 0) && inRange 1 4 (u8 b 5) &&
      (if u16 b 1 = 0 then decide (u16 b 3 = 0) else inRange 3 500 (u16 b 1) && inRange 0 (u16 b 1 - 1) (u16 b 3))) = true ↔
    AreaInRange b := by
  unfold AreaInRange Config.maxArea
  split
  · simp only [Bool.and_eq_true, inRange_iff, decide_eq_true_eq]
    omega
  · simp only [Bool.and_eq_true, inRange_iff]
    omega

theorem ownSetArea_taken {b : List Byte} (s : State) (h : AreaInRange b) : ownSetArea b s =
    (applyArea (u8 b 0) { stormThreshold := u16 b 1, calmLevel := u16 b 3, stormClass := u8 b 5 } s, ok) := by
  have hp : parseArea b = some (u8 b 0, { stormThreshold := u16 b 1, calmLevel := u16 b 3, stormClass := u8 b 5 }) :=
    if_pos ((areaFits_iff b).mpr h)
  simp [ownSetArea, hp]

theorem ownSetArea_refused {b : List Byte} (s : State) (h : ¬ AreaInRange b) : ownSetArea b s = (s, refuse .badValue) := by
  have hp : parseArea b = none := if_neg (mt (areaFits_iff b).mp h)
  simp [ownSetArea, hp]

/-- R16: the settings are stored, and the queue may rank the area's slot anew; nothing else changes. -/
theorem applyArea_marks (a : Nat) (v : AreaSettings) (s : State) :
    MarkFrame { s with directory := { s.directory with areas := Table.store {} s.directory.areas a v } } (applyArea a v s) :=
  queueAction_frame _ _

end Sys2Proof.Machine
end

section
/-! PROOF. How a record takes up new terms (R112 to R115), and with it SET-PROFILE, READ-PROFILE and SET-AREA (R15 to R17). -/

namespace Sys2Proof.Machine

/-! ## Keys -/

theorem conditionOfCode_code (c : Condition) : conditionOfCode (conditionCode c) = some c := by cases c <;> rfl

/-- R88: the condition of a record key. -/
@[simp] theorem keyCondition_recordKey (a : Nat) (c : Condition) : keyCondition (recordKey a c) = c := by
  have := conditionCode_lt c
  have hk : recordKey a c % 16 = conditionCode c := by
    unfold recordKey
    omega
  rw [keyCondition, hk, conditionOfCode_code]
  rfl

theorem profileTerms_recordKey (s : State) (a : Nat) (c : Condition) : profileTerms s (recordKey a c) = termsOf c (assetProfile s a) := by
  simp [profileTerms]

theorem isHeld_recordKey (s : State) (a : Nat) (c : Condition) : isHeld s (recordKey a c) = decide (heldBy s a c ≠ .notHeld) := by
  simp [isHeld]

/-! ## What the Incident Table makes of a confirmation (R123) -/

/-- What claims, and a queue action, leave of a record. -/
def Record.unclaimed (r : Record) : Record := { r with incident := none, seen := false, waiting := none }

/-- Beside the tables' frame, records have changed in what a claim changes alone. -/
structure ClaimFrame (s t : State) : Prop extends TablesFrame s t where
  record : ∀ key, (recordOf t key).map Record.unclaimed = (recordOf s key).map Record.unclaimed

theorem ClaimFrame.refl (s : State) : ClaimFrame s s := ⟨.refl s, fun _ => rfl⟩

theorem ClaimFrame.trans {s t u : State} (h : ClaimFrame s t) (k : ClaimFrame t u) : ClaimFrame s u :=
  ⟨h.toTablesFrame.trans k.toTablesFrame, fun key => (k.record key).trans (h.record key)⟩

theorem ClaimFrame.record_some {s t : State} (h : ClaimFrame s t) {key : Nat} {r : Record} (hr : recordOf s key = some r) :
    ∃ q, recordOf t key = some q ∧ q.unclaimed = r.unclaimed := by
  have := h.record key
  rw [hr] at this
  exact Option.map_eq_some_iff.mp this

theorem MarkFrame.claims {s t : State} (h : MarkFrame s t) : ClaimFrame s t := by
  refine ⟨h.tables, fun key => ?_⟩
  have := congrArg (Option.map Record.unclaimed) (h.record key)
  rw [Option.map_map, Option.map_map] at this
  exact this

theorem modSlot_claims (n : Nat) (f : Slot → Slot) (s : State) : ClaimFrame s (modSlot n f s) :=
  ⟨(modSlot_frame n f s).toTablesFrame, fun _ => rfl⟩

theorem setWindow_claims (a : Nat) (w : List Nat) (s : State) : ClaimFrame s (setWindow a w s) :=
  ⟨⟨rfl, rfl, rfl, rfl, rfl, rfl, rfl, rfl, rfl⟩, fun _ => rfl⟩

theorem modRecord_claims (key : Nat) {f : Record → Record} (hf : ∀ r, (f r).unclaimed = r.unclaimed) (s : State) :
    ClaimFrame s (modRecord key f s) := by
  refine ⟨(modRecord_frame key f s).toTablesFrame, fun k => ?_⟩
  by_cases hk : k = key
  · subst hk
    rw [recordOf_modRecord_self, Option.map_map]
    exact congrArg (Option.map · _) (funext hf)
  · rw [recordOf_modRecord_ne _ _ hk]

theorem joinSlot_claims (n : Nat) (s : State) (key : Nat) : ClaimFrame s (joinSlot n s key) :=
  (modSlot_claims n _ s).trans (modRecord_claims key (f := fun r => { r with incident := some n, seen := r.seen || (slotOf s n).seen })
    (fun _ => rfl) _)

theorem joinAll_claims (n : Nat) (keys : List Nat) (s : State) : ClaimFrame s (joinAll n keys s) :=
  foldl_closed (P := ClaimFrame s) (fun t key ht => ht.trans (joinSlot_claims n t key)) keys s (.refl s)

theorem countStorm_claims (a : Nat) (s : State) : ClaimFrame s (countStorm a s) := by
  unfold countStorm
  split
  · exact .refl s
  · exact setWindow_claims _ _ s

theorem rootSlots_claims (key : Nat) (x : AssetSettings) (s : State) : ClaimFrame s (rootSlots key x s) := by
  unfold rootSlots
  split
  · exact ((modSlot_claims _ _ s).trans (joinSlot_claims _ _ _)).trans (joinAll_claims _ _ _)
  · exact .refl s

theorem feederClaimSlots_claims (key : Nat) (x : AssetSettings) (s : State) : ClaimFrame s (feederClaimSlots key x s) := by
  unfold feederClaimSlots
  split
  · exact joinSlot_claims _ _ _
  · exact .refl s

theorem areaTestSlots_claims (a : Nat) (s : State) : ClaimFrame s (areaTestSlots a s) := by
  unfold areaTestSlots
  split
  · exact (modSlot_claims _ _ s).trans (joinAll_claims _ _ _)
  · exact .refl s

theorem areaClaimSlots_claims (a key : Nat) (s : State) : ClaimFrame s (areaClaimSlots a key s) := by
  unfold areaClaimSlots
  dsimp only
  split
  · exact joinSlot_claims _ _ _
  · exact .refl s

/-- R123: with a confirmation the Incident Table changes slots and windows, and members' incident and seen fields. -/
theorem claimSlots_claims (key : Nat) (s : State) : ClaimFrame s (claimSlots key s) := by
  unfold claimSlots
  split
  · exact .refl s
  · rename_i x _
    have h := ((countStorm_claims x.settings.area s).trans (rootSlots_claims key x.settings _)).trans (feederClaimSlots_claims key x.settings _)
    dsimp only
    split
    · exact h
    · exact h.trans ((areaTestSlots_claims _ _).trans (areaClaimSlots_claims _ _ _))

/-! ## Escalation and the taking of terms (R109, R111) -/

theorem escalationTest_frame (key : Nat) (s : State) : TablesFrame s (escalationTest key s) := by
  unfold escalationTest
  split
  · exact .refl s
  · split
    · exact (modRecord_frame key _ s).toTablesFrame.trans (queueAction_frame _ _).tables
    · exact .refl s

/-- Where there is no record there is no escalation test. -/
theorem escalationTest_none {s : State} {key : Nat} (h : recordOf s key = none) : escalationTest key s = s := by
  simp [escalationTest, h]

/-- R109: the test escalates the record or leaves it as it was, but for its waiting mark. -/
theorem recordOf_escalationTest {s : State} {key : Nat} {r : Record} (hr : recordOf s key = some r) :
    ∃ q, recordOf (escalationTest key s) key = some q ∧
      q.unmarked = { r with escalated := r.escalated || (escalates r && !isHeld s key), waiting := none } := by
  simp only [escalationTest, hr]
  split
  · rename_i h
    have hm : recordOf (modRecord key (fun r => { r with escalated := true }) s) key = some { r with escalated := true } := by
      rw [recordOf_modRecord_self, hr]; rfl
    obtain ⟨q, hq, hu⟩ := (queueAction_frame [.record key] _).record_some hm
    refine ⟨q, hq, hu.trans ?_⟩
    rw [h, Bool.or_true]
    rfl
  · rename_i h
    refine ⟨r, hr, ?_⟩
    rw [Bool.eq_false_of_not_eq_true h, Bool.or_false]
    rfl

/-- R111: the record holds the terms of its profile as it stands. -/
def adoptTerms (key : Nat) (s : State) : State := modRecord key (fun r => { r with terms := profileTerms s key }) s

theorem adoptTerms_frame (key : Nat) (s : State) : TablesFrame s (adoptTerms key s) := (modRecord_frame key _ s).toTablesFrame

@[simp] theorem isHeld_adoptTerms (key : Nat) (s : State) : isHeld (adoptTerms key s) key = isHeld s key := rfl

theorem recordOf_adoptTerms {s : State} {key : Nat} {r : Record} (hr : recordOf s key = some r) :
    recordOf (adoptTerms key s) key = some { r with terms := profileTerms s key } := by
  rw [adoptTerms, recordOf_modRecord_self, hr]; rfl

theorem takeTerms_frame (key : Nat) (s : State) : TablesFrame s (takeTerms key s) :=
  (adoptTerms_frame key s).trans (escalationTest_frame key _)

/-- R111: a taking of terms changes terms, waiting mark, and perhaps the escalated mark. -/
theorem recordOf_takeTerms {s : State} {key : Nat} {r : Record} (hr : recordOf s key = some r) :
    ∃ q e, recordOf (takeTerms key s) key = some q ∧ q.unmarked = { r with terms := profileTerms s key, escalated := e, waiting := none } := by
  obtain ⟨q, hq, hu⟩ := recordOf_escalationTest (recordOf_adoptTerms hr)
  exact ⟨q, _, hq, hu⟩

/-! ## Confirmation (R100) -/

theorem confirmRecord_frame (key : Nat) (s : State) : TablesFrame s (confirmRecord key s) :=
  (takeTerms_frame key s).trans ((modRecord_frame key _ _).toTablesFrame.trans
    ((claimSlots_claims key _).toTablesFrame.trans (queueAction_frame _ _).tables))

/-- R100: a record that confirms is ACTIVE under the profile's terms, confirmed at this second, with its timer at 0. -/
theorem recordOf_confirmRecord {s : State} {key : Nat} {r : Record} (hr : recordOf s key = some r) :
    ∃ q, recordOf (confirmRecord key s) key = some q ∧ q.state = .active ∧ q.terms = profileTerms s key ∧ q.confirmed = some (now s) ∧
      q.timer = 0 := by
  obtain ⟨q, e, hq, hu⟩ := recordOf_takeTerms hr
  have hm : recordOf (modRecord key (confirmFields (now (takeTerms key s)) (quality (takeTerms key s))) (takeTerms key s)) key =
      some (confirmFields (now s) (quality (takeTerms key s)) q) := by
    rw [recordOf_modRecord_self, hq, (takeTerms_frame key s).now]; rfl
  have hc : ClaimFrame _ (confirmRecord key s) := (claimSlots_claims key _).trans (queueAction_frame _ _).claims
  obtain ⟨p, hp, hv⟩ := hc.record_some hm
  exact ⟨p, hp, congrArg Record.state hv, (congrArg Record.terms hv).trans (congrArg Record.terms hu), congrArg Record.confirmed hv,
    congrArg Record.timer hv⟩

/-! ## The entry to RESTORED (R103, R104, R124) -/

theorem memberRestored_frame (key : Nat) (s : State) : TablesFrame s (memberRestored key s) := by
  unfold memberRestored
  split
  · exact .refl s
  · split
    · exact .refl s
    · exact (takeRecord_frame key s).toTablesFrame

/-- R103: the state in which a record has entered RESTORED, before R104 and R124 act on it. -/
def restoredState (key : Nat) (s : State) : State :=
  modRecord key (fun r => { enterState .restored (now (takeTerms key s)) r with restored := some (now (takeTerms key s)) }) (takeTerms key s)

theorem restoredState_frame (key : Nat) (s : State) : TablesFrame s (restoredState key s) :=
  (takeTerms_frame key s).trans (modRecord_frame key _ _).toTablesFrame

/-- R103: the record in RESTORED, under the profile's terms, with its membership and seen mark. -/
theorem recordOf_restoredState {s : State} {key : Nat} {r : Record} (hr : recordOf s key = some r) :
    ∃ q, recordOf (restoredState key s) key = some q ∧ q.state = .restored ∧ q.restored = some (now s) ∧ q.terms = profileTerms s key ∧
      q.incident = r.incident ∧ q.seen = r.seen := by
  obtain ⟨q, e, hq, hu⟩ := recordOf_takeTerms hr
  have hterms : q.terms = profileTerms s key := congrArg Record.terms hu
  have hincident : q.incident = r.incident := (congrArg Record.incident hu :)
  have hseen : q.seen = r.seen := (congrArg Record.seen hu :)
  refine ⟨{ enterState .restored (now s) q with restored := some (now s) }, ?_, rfl, rfl, hterms, hincident, hseen⟩
  rw [restoredState, recordOf_modRecord_self, hq, (takeTerms_frame key s).now]; rfl

/-- R104: what follows the entry. -/
theorem enterRestored_eq {s : State} {key : Nat} {q : Record} (hq : recordOf (restoredState key s) key = some q) :
    enterRestored key s = if closesItself q then removeRecord key (restoredState key s)
      else queueAction (removalThings (restoredState key s) key) (memberRestored key (restoredState key s)) := by
  unfold enterRestored
  dsimp only
  rw [restoredState] at hq
  rw [hq]
  rfl

theorem enterRestored_frame {s : State} {key : Nat} {r : Record} (hr : recordOf s key = some r) : TablesFrame s (enterRestored key s) := by
  obtain ⟨q, hq, -⟩ := recordOf_restoredState hr
  rw [enterRestored_eq hq]
  split
  · exact (restoredState_frame key s).trans (removeRecord_frame key _).toTablesFrame
  · exact (restoredState_frame key s).trans ((memberRestored_frame key _).trans (queueAction_frame _ _).tables)

/-- R104, R124: a record that closes itself, or is a member of another slot than an outstation's, is removed. -/
theorem enterRestored_removes {s : State} {key : Nat} {r : Record} (hr : recordOf s key = some r)
    (h : (r.seen = false ∧ (profileTerms s key).autoClose = true) ∨ ∃ n, r.incident = some n ∧ slotType n ≠ .outstation) :
    recordOf (enterRestored key s) key = none := by
  obtain ⟨q, hq, -, -, hterms, hinc, hseen⟩ := recordOf_restoredState hr
  rw [enterRestored_eq hq]
  split
  · exact recordOf_removeRecord key _
  · rename_i hc
    refine (queueAction_frame _ _).record_none ?_
    rcases h with ⟨h1, h2⟩ | ⟨n, hn, ht⟩
    · exact absurd (by simp [closesItself, hterms, hseen, h1, h2]) hc
    · simp [memberRestored, hq, hinc, hn, ht, recordOf_takeRecord]

/-- R103: any other record stays, in RESTORED. -/
theorem enterRestored_stays {s : State} {key : Nat} {r : Record} (hr : recordOf s key = some r)
    (h : ¬ ((r.seen = false ∧ (profileTerms s key).autoClose = true) ∨ ∃ n, r.incident = some n ∧ slotType n ≠ .outstation)) :
    ∃ q, recordOf (enterRestored key s) key = some q ∧ q.state = .restored ∧ q.restored = some (now s) ∧ q.terms = profileTerms s key ∧
      q.incident = r.incident := by
  obtain ⟨q, hq, hstate, hat, hterms, hinc, hseen⟩ := recordOf_restoredState hr
  obtain ⟨hopen, hmember⟩ := not_or.mp h
  have hclose : ¬ closesItself q = true := by simpa [closesItself, hterms, hseen] using hopen
  have hm : memberRestored key (restoredState key s) = restoredState key s := by
    unfold memberRestored
    split
    · rfl
    · rename_i n hn
      refine if_pos ?_
      by_contra ht
      exact hmember ⟨n, by simpa [hq, hinc] using hn, ht⟩
  rw [enterRestored_eq hq, if_neg hclose, hm]
  obtain ⟨p, hp, hu⟩ := (queueAction_frame (removalThings (restoredState key s) key) _).record_some hq
  exact ⟨p, hp, (congrArg Record.state hu).trans hstate, (congrArg Record.restored hu).trans hat, (congrArg Record.terms hu).trans hterms,
    (congrArg Record.incident hu).trans hinc⟩

/-! ## The check of a record under new terms (R113, R114) -/

/-- R113: the record has reached the new confirm term, or the new count. -/
def confirmDue (r : Record) (new : Terms) : Bool :=
  match new.confirm with
  | .time n => decide (n ≤ r.timer)
  | .count n _ => decide (n ≤ r.evidence)

theorem takeUpCheck_confirm {r : Record} {new : Terms} (hs : r.state = .qualifying) (hd : confirmDue r new = true) :
    takeUpCheck r new = .confirm := by
  unfold confirmDue at hd
  cases ho : r.terms.confirm <;> cases hn : new.confirm <;> simp_all [takeUpCheck]

theorem takeUpCheck_wait {r : Record} {new : Terms} (hs : r.state = .qualifying) (hd : confirmDue r new = false)
    (hn : ∀ n w, new.confirm ≠ .count n w) : takeUpCheck r new = .keep := by
  unfold confirmDue at hd
  cases hc : new.confirm with
  | time n => simp_all [takeUpCheck]
  | count n w => exact absurd hc (hn n w)

theorem takeUpCheck_count {r : Record} {new : Terms} {n w n' w' : Nat} (hs : r.state = .qualifying) (hd : confirmDue r new = false)
    (ho : r.terms.confirm = .count n w) (hn : new.confirm = .count n' w') :
    takeUpCheck r new = if w' ≤ w - r.windowLeft.getD 0 then .remove else .window (w' - (w - r.windowLeft.getD 0)) := by
  simp only [confirmDue, hn, decide_eq_false_iff_not] at hd
  simp only [takeUpCheck, hs, ho, hn, if_neg hd]

theorem takeUpCheck_restore {r : Record} {new : Terms} (hs : r.state = .restoring) (h : new.clearTime ≤ r.timer) :
    takeUpCheck r new = .restore := by
  simp [takeUpCheck, hs, h]

theorem takeUpCheck_keep {r : Record} {new : Terms}
    (h : r.state = .active ∨ r.state = .restored ∨ (r.state = .restoring ∧ r.timer < new.clearTime)) : takeUpCheck r new = .keep := by
  rcases h with h | h | ⟨h, ht⟩
  · simp [takeUpCheck, h]
  · simp [takeUpCheck, h]
  · simp [takeUpCheck, h, Nat.not_le_of_lt ht]

/-! ## The taking up of terms (R112 to R115) -/

/-- R113, R114: what the check of a record's state has it do. -/
def actOn (key : Nat) (s : State) : TakeUp → State
  | .keep => s
  | .confirm => confirmRecord key s
  | .restore => enterRestored key s
  | .remove => removeRecord key s
  | .window left => modRecord key (fun r => { r with windowLeft := some left }) s

theorem takeUpRecord_eq {s : State} {key : Nat} {r : Record} (hr : recordOf s key = some r) :
    takeUpRecord s key = escalationTest key (actOn key (adoptTerms key s) (takeUpCheck r (profileTerms s key))) := by
  unfold takeUpRecord
  rw [hr]
  dsimp only
  cases takeUpCheck r (profileTerms s key) <;> rfl

theorem takeUpRecord_frame {s : State} {key : Nat} {r : Record} (hr : recordOf s key = some r) : TablesFrame s (takeUpRecord s key) := by
  rw [takeUpRecord_eq hr]
  refine (adoptTerms_frame key s).trans (TablesFrame.trans ?_ (escalationTest_frame key _))
  cases takeUpCheck r (profileTerms s key) with
  | keep => exact .refl _
  | confirm => exact confirmRecord_frame key _
  | restore => exact enterRestored_frame (recordOf_adoptTerms hr)
  | remove => exact (removeRecord_frame key _).toTablesFrame
  | window left => exact (modRecord_frame key _ _).toTablesFrame

/-- R113: a QUALIFYING record at its new term or count confirms. -/
theorem takeUpRecord_confirms {s : State} {key : Nat} {r : Record} (hr : recordOf s key = some r)
    (hc : takeUpCheck r (profileTerms s key) = .confirm) :
    ∃ q, recordOf (takeUpRecord s key) key = some q ∧ q.state = .active ∧ q.terms = profileTerms s key ∧ q.confirmed = some (now s) ∧
      q.timer = 0 := by
  rw [takeUpRecord_eq hr, hc]
  obtain ⟨q, hq, hstate, hterms, hat, htimer⟩ := recordOf_confirmRecord (recordOf_adoptTerms hr)
  obtain ⟨p, hp, hu⟩ := recordOf_escalationTest hq
  exact ⟨p, hp, (congrArg Record.state hu).trans hstate, (congrArg Record.terms hu).trans hterms, (congrArg Record.confirmed hu).trans hat,
    (congrArg Record.timer hu).trans htimer⟩

/-- R113: a QUALIFYING record that the check leaves as it is holds the new terms, and nothing else changes. -/
theorem takeUpRecord_waits {s : State} {key : Nat} {r : Record} (hr : recordOf s key = some r) (hs : r.state = .qualifying)
    (hc : takeUpCheck r (profileTerms s key) = .keep) :
    takeUpRecord s key = { s with faults := (takeUpRecord s key).faults } ∧
      recordOf (takeUpRecord s key) key = some { r with terms := profileTerms s key } := by
  have hq := recordOf_adoptTerms hr
  have ht : takeUpRecord s key = adoptTerms key s := by
    rw [takeUpRecord_eq hr, hc]
    exact escalationTest_not_standing hq (by simp [standing, hs])
  rw [ht]
  exact ⟨rfl, hq⟩

/-- R113: a window that is spent under the new terms removes the record. -/
theorem takeUpRecord_removes {s : State} {key : Nat} {r : Record} (hr : recordOf s key = some r)
    (hc : takeUpCheck r (profileTerms s key) = .remove) : recordOf (takeUpRecord s key) key = none := by
  have hgone : recordOf (removeRecord key (adoptTerms key s)) key = none := recordOf_removeRecord key _
  rw [takeUpRecord_eq hr, hc, actOn, escalationTest_none hgone, hgone]

/-- R113: a window that is not spent is computed anew. -/
theorem takeUpRecord_window {s : State} {key : Nat} {r : Record} {left : Seconds} (hr : recordOf s key = some r) (hs : r.state = .qualifying)
    (hc : takeUpCheck r (profileTerms s key) = .window left) :
    takeUpRecord s key = { s with faults := (takeUpRecord s key).faults } ∧
      recordOf (takeUpRecord s key) key = some { r with terms := profileTerms s key, windowLeft := some left } := by
  have hq : recordOf (actOn key (adoptTerms key s) (.window left)) key = some { r with terms := profileTerms s key, windowLeft := some left } := by
    rw [actOn, recordOf_modRecord_self, recordOf_adoptTerms hr]; rfl
  have ht : takeUpRecord s key = actOn key (adoptTerms key s) (.window left) := by
    rw [takeUpRecord_eq hr, hc]
    exact escalationTest_not_standing hq (by simp [standing, hs])
  rw [ht]
  exact ⟨rfl, hq⟩

/-- R114: a RESTORING record at its new clear time is removed, or enters RESTORED. -/
theorem takeUpRecord_restores {s : State} {key : Nat} {r : Record} (hr : recordOf s key = some r)
    (hc : takeUpCheck r (profileTerms s key) = .restore) :
    if (r.seen = false ∧ (profileTerms s key).autoClose = true) ∨ (∃ n, r.incident = some n ∧ slotType n ≠ .outstation) then
      recordOf (takeUpRecord s key) key = none
    else ∃ q, recordOf (takeUpRecord s key) key = some q ∧ q.state = .restored ∧ q.restored = some (now s) ∧ q.terms = profileTerms s key ∧
      q.incident = r.incident := by
  rw [takeUpRecord_eq hr, hc, actOn]
  split
  · rename_i h
    have hgone := enterRestored_removes (recordOf_adoptTerms hr) h
    rw [escalationTest_none hgone, hgone]
  · rename_i h
    obtain ⟨q, hq, hstate, hrest⟩ := enterRestored_stays (recordOf_adoptTerms hr) h
    rw [escalationTest_not_standing hq (by simp [standing, hstate])]
    exact ⟨q, hq, hstate, hrest⟩

/-- R109: for a record past QUALIFYING the escalation test asks for a record that is not RESTORED. -/
theorem escalates_past_qualifying {r : Record} (hs : r.state ≠ .qualifying) : escalates r =
    (decide (r.terms.escalateAfter ≠ 0) && decide (r.terms.escalateAfter ≤ r.escTimer) && !r.escalated &&
      (decide (r.state ≠ .restored) && !r.seen && decide (r.incident = none))) := by
  unfold escalates standing
  cases h : r.state <;> simp_all

/-- R115: a record that the check leaves as it is holds the new terms, and may escalate under them. -/
theorem takeUpRecord_adopts {s : State} {key : Nat} {r : Record} (hr : recordOf s key = some r) (hs : r.state ≠ .qualifying)
    (hc : takeUpCheck r (profileTerms s key) = .keep) :
    (recordOf (takeUpRecord s key) key).map Record.unmarked = some { r with
      terms := profileTerms s key, waiting := none
      escalated := r.escalated || (decide (r.state ≠ .restored) && decide ((profileTerms s key).escalateAfter ≠ 0) &&
        decide ((profileTerms s key).escalateAfter ≤ r.escTimer) && !r.seen && decide (r.incident = none) && !isHeld s key) } := by
  obtain ⟨q, hq, hu⟩ := recordOf_escalationTest (recordOf_adoptTerms hr)
  rw [takeUpRecord_eq hr, hc, actOn, hq, Option.map_some, hu, isHeld_adoptTerms, escalates_past_qualifying (by exact hs)]
  cases r.escalated
  · simp only [Bool.false_or, Bool.not_false, Bool.and_true]
    ac_rfl
  · simp

end Sys2Proof.Machine

namespace Sys2Proof.Proofs

open Sys2Proof.Machine

/-- Settles O47. The bodies' ranges are the parsers' tests; a record's take-up is what its check comes to. -/
theorem profilesAndAreasAreStored : Obligations.ProfilesAndAreasAreStored := by
  refine ⟨fun s f h => ⟨fun hn => ?_, fun hfit => ?_⟩, fun s f p h hp hn => ?_, fun s a c r hr => ?_,
    fun s f h => ⟨fun hn => ?_, fun hfit => ?_⟩⟩
  · -- SET-PROFILE out of range
    exact exec_refused h (ownSetProfile_refused s hn)
  · -- SET-PROFILE in range
    have hfit : ProfileInRange f.body := hfit
    have taken := exec_taken (c := .setProfile) h (ownSetProfile_taken s hfit)
    obtain ⟨h13, h14, -⟩ := (profileFits_iff f.body).mpr hfit
    refine ⟨carriedProfile f.body, encProfile_carried (h.length _ rfl) h13 h14, fun hd => ?_, fun hi => ?_⟩
    · rw [taken]
      simp [applyProfile, carriedProfile, hd]
    · rw [taken]
      simp [applyProfile, carriedProfile, hi, takeUpProfile]
  · -- READ-PROFILE
    have hpo : profileOf s (u8 f.body 0) = p := by simp [profileOf, hp]
    rw [← hpo]
    exact exec_taken h (ownReadProfile_inRange hn)
  · -- a record takes up terms
    intro new due
    have hnew : profileTerms s (recordKey a c) = new := profileTerms_recordKey s a c
    have hdue : due = confirmDue r new := by
      simp only [due, confirmDue]
      cases new.confirm <;> rfl
    rw [hdue, ← hnew]
    refine ⟨_, rfl, (takeUpRecord_frame hr).eq, fun hs hd => takeUpRecord_confirms hr (takeUpCheck_confirm hs hd),
      fun hs hd hn => takeUpRecord_waits hr hs (takeUpCheck_wait hs hd hn), fun n w n' w' hs hd ho hn => ?_,
      fun hs ht => takeUpRecord_restores hr (takeUpCheck_restore hs ht), fun hs => ?_⟩
    · have hc := takeUpCheck_count hs hd ho hn
      split
      · rename_i hw
        exact takeUpRecord_removes hr (hc.trans (if_pos hw))
      · rename_i hw
        exact takeUpRecord_window hr hs (hc.trans (if_neg hw))
    · have hq : r.state ≠ .qualifying := by rintro hq; simp [hq] at hs
      rw [takeUpRecord_adopts hr hq (takeUpCheck_keep hs), isHeld_recordKey]
      simp
  · -- SET-AREA out of range
    exact exec_refused h (ownSetArea_refused s hn)
  · -- SET-AREA in range
    have hm := applyArea_marks (u8 f.body 0) { stormThreshold := u16 f.body 1, calmLevel := u16 f.body 3, stormClass := u8 f.body 5 } s
    refine ⟨_, exec_taken h (ownSetArea_taken s hfit), ?_, fun a ha => ?_, ?_, hm.record, hm.storms, hm.slot⟩
    · rw [areaOf, hm.directory]
      exact Table.lookup_store_self _ _ _ _
    · rw [areaOf, hm.directory]
      exact Table.lookup_store_ne _ _ _ ha
    · rw [hm.directory]
      exact hm.tables.eq

end Sys2Proof.Proofs
end

section
/-! PROOF. Every list and counter stays within its bounds: what the primitive changes do to the sizes, and the step. -/

namespace Sys2Proof.Machine

/-! ## The bounds, block by block -/

/-- R46: no outstation counts more than 15 failed visits. -/
def FailuresSized (d : Directory) : Prop := ∀ e ∈ d.stations, e.2.failures ≤ 15

/-- R33, R35, R36: every line controller is within its bounds. -/
def LinesSized (s : State) : Prop := ∀ l, LineSized (lineOf s l)

/-- R135: every storm window has its form. -/
def WindowsFit (k : Incidents) : Prop := ∀ e ∈ k.storms, windowFits e.2

/-- R183: the save count and the configurations of the Settings Store are within their bounds. -/
structure StoreSized (k : Store) : Prop where
  save : ∀ v, k.saving = some v → v.count ≤ 5
  captured : ∀ v, k.saving = some v → ConfigurationSized v.captured
  image : ∀ i, k.image = some i → ConfigurationSized i.contents

theorem Sized.store {s : State} (h : Sized s) : StoreSized s.store := ⟨h.save, h.captured, h.image⟩

/-- A change keeps the bounds when it does so block by block; a block that it leaves as it is needs no word. -/
theorem Sized.change {s t : State} (h : Sized s)
    (htime : TimebaseSized s.timebase → TimebaseSized t.timebase := by exact id)
    (hgate : GateSized s.gate → GateSized t.gate := by exact id)
    (hfail : FailuresSized s.directory → FailuresSized t.directory := by exact id)
    (hlines : LinesSized s → LinesSized t := by exact id)
    (hintake : IntakeSized s.intake → IntakeSized t.intake := by exact id)
    (hrecords : s.faults.length ≤ Config.maxRecords → t.faults.length ≤ Config.maxRecords := by exact id)
    (hwindows : WindowsFit s.incidents → WindowsFit t.incidents := by exact id)
    (hitems : s.dispatch.queue.length ≤ Config.maxQueue → t.dispatch.queue.length ≤ Config.maxQueue := by exact id)
    (hframes : s.link.requests.length ≤ Config.requestFrames → t.link.requests.length ≤ Config.requestFrames := by exact id)
    (hstore : StoreSized s.store → StoreSized t.store := by exact id) : Sized t :=
  have k := hstore h.store
  ⟨htime h.timebase, hgate h.gate, hfail h.failures, hlines h.lines, hintake h.intake, hrecords h.records, hwindows h.windows,
    hitems h.items, hframes h.frames, k.save, k.captured, k.image⟩

/-! ## Outstations -/

theorem FailuresSized.modify {d : Directory} (h : FailuresSized d) (n : Nat) {f : Station → Station} (hf : StationChange f) :
    FailuresSized { d with stations := Table.modify d.stations n f } := by
  intro e he
  obtain ⟨e, he', rfl⟩ := List.mem_map.mp he
  split
  · exact (hf e.2).1 (h e he')
  · exact h e he'

/-- An outstation that is new, or keeps its failure count, is written within the bounds. -/
theorem FailuresSized.insert {s : State} (h : FailuresSized s.directory) {n : Nat} {v : Station} (hv : StationKept s n v) :
    FailuresSized { s.directory with stations := Table.insert s.directory.stations n v } := by
  intro e he
  rcases Table.mem_insert _ _ _ e he with rfl | he
  · rcases hv.failures with hf | ⟨st, hst, hf⟩
    · exact hf.trans_le (Nat.zero_le _)
    · exact hf.trans_le (h _ (Table.mem_of_find hst))
  · exact h e he

theorem FailuresSized.erase {d : Directory} (h : FailuresSized d) (n : Nat) :
    FailuresSized { d with stations := Table.erase d.stations n } :=
  fun e he => h e (List.mem_of_mem_filter he)

/-- Outstations that all start with no failed visit are within the bounds. -/
theorem failuresSized_of_map {d : Directory} {α : Type} {l : List α} {g : α → Nat × Station} (hd : d.stations = l.map g)
    (hg : ∀ a, (g a).2.failures = 0) : FailuresSized d := by
  intro e he
  rw [hd] at he
  obtain ⟨a, _, rfl⟩ := List.mem_map.mp he
  exact (hg a).trans_le (Nat.zero_le _)

/-! ## Lines -/

theorem LinesSized.modLine {s : State} (h : LinesSized s) {l : FieldLine} {f : LineController → LineController}
    (hf : LineSized (lineOf s l) → LineSized (f (lineOf s l))) : LinesSized (modLine l f s) := by
  intro m
  by_cases hm : m = l
  · subst hm
    rw [lineOf_modLine_self]
    exact hf (h m)
  · rw [lineOf_modLine_ne f s hm]
    exact h m

/-- R57: a line controller that a reset leaves is within its bounds when its interval setting is. -/
theorem resetLine_sized {v : LineSettings} (h : v.interval ≤ 600) : LineSized (resetLine v) :=
  ⟨Nat.zero_le _, Nat.zero_le _, h, by simp [resetLine], fun _ _ h => nomatch h⟩

/-! ## Storm windows -/

theorem calmWindow_fits : windowFits calmWindow := by unfold windowFits; decide

/-- R135: a window as it stands has its form, listed or not. -/
theorem WindowsFit.windowOf {s : State} (h : WindowsFit s.incidents) (a : Nat) : windowFits (Machine.windowOf s a) := by
  unfold Machine.windowOf Table.lookup
  cases hw : Table.find s.incidents.storms a with
  | none => exact calmWindow_fits
  | some w => exact h _ (Table.mem_of_find hw)

theorem WindowsFit.store {k : Incidents} (h : WindowsFit k) (a : Nat) {w : List Nat} (hw : windowFits w) :
    WindowsFit { k with storms := Table.store calmWindow k.storms a w } := by
  intro e he
  change e ∈ Table.store calmWindow k.storms a w at he
  unfold Table.store at he
  split at he
  · exact h e (List.mem_of_mem_filter he)
  · rcases Table.mem_insert _ _ _ e he with rfl | he
    · exact hw
    · exact h e he

/-! ## Configurations -/

/-- R181: the configuration that a save captures is within its bounds. -/
theorem capture_sized {s : State} (hg : GateSized s.gate) (hl : LinesSized s) : ConfigurationSized (capture s) := by
  refine ⟨hg.settleTime, fun l => ?_⟩
  have hc : (capture s).line l = (lineOf s l).settings := by cases l <;> rfl
  rw [hc]
  exact (hl l).setting

theorem factoryConfiguration_sized : ConfigurationSized {} := ⟨by decide, fun l => by cases l <;> decide⟩

/-- R184: start-up loads a configuration within its bounds: the image's, or the factory values. -/
theorem startConfiguration_sized {k : Store} (h : StoreSized k) : ConfigurationSized (startConfiguration k) := by
  unfold startConfiguration
  split
  · rename_i i hi
    split
    · exact h.image i hi
    · exact factoryConfiguration_sized
  · exact factoryConfiguration_sized

theorem lineOf_powerOnState (s : State) (l : FieldLine) : lineOf (powerOnState s) l = resetLine ((startConfiguration s.store).line l) := by
  cases l <;> rfl

theorem lineOf_restartState (s : State) (l : FieldLine) : lineOf (restartState s) l = resetLine (lineOf s l).settings := by
  cases l <;> rfl

theorem lineOf_factoryState (s : State) (l : FieldLine) : lineOf (factoryState s) l = resetLine {} := by cases l <;> rfl

/-! ## The queue -/

@[simp] theorem driveAlert_queue (a : AlertState) (d : Dispatch) : (driveAlert a d).queue = d.queue := by
  unfold driveAlert
  split
  · rfl
  · rfl
  · split <;> rfl

@[simp] theorem applyAlert_queue (v : AlertSettings) (d : Dispatch) : (applyAlert v d).queue = d.queue := driveAlert_queue _ _

@[simp] theorem flashStep_queue (d : Dispatch) : (flashStep d).queue = d.queue := by
  unfold flashStep
  split
  · split <;> rfl
  · rfl

/-- R148: setting marks and replacing the queue's list within its bound keep that bound. -/
theorem queueBound_closed : MarkClosed (fun s => s.dispatch.queue.length ≤ Config.maxQueue) where
  mark h := by rw [setMark_dispatch]; exact h
  queue hq h := hq.elim id (·.trans h)

/-- R148: a queue action ends with at most 192 items. -/
theorem queueAction_bound {s : State} (h : s.dispatch.queue.length ≤ Config.maxQueue) (ts : List Thing) :
    (queueAction ts s).dispatch.queue.length ≤ Config.maxQueue := by
  have hu := handAll_kept queueBound_closed ts h
  unfold queueAction noteAlert noteHead
  simp only [driveAlert_queue]
  split <;> exact hu

theorem sized_queueAction {s : State} (h : Sized s) (ts : List Thing) : Sized (queueAction ts s) := by
  have f := queueAction_frame ts s
  have hk : (queueAction ts s).faults.length = s.faults.length := by simpa [Table.keys] using congrArg List.length f.keys
  refine ⟨f.timebase ▸ h.timebase, f.gate ▸ h.gate, f.directory ▸ h.failures, ?_, f.intake ▸ h.intake, hk ▸ h.records,
    f.storms ▸ h.windows, queueAction_bound h.items ts, f.link ▸ h.frames, f.store ▸ h.save, f.store ▸ h.captured, f.store ▸ h.image⟩
  intro l
  have hl : lineOf (queueAction ts s) l = lineOf s l := by cases l <;> simp only [lineOf, f.lines]
  exact hl ▸ h.lines l

/-! ## The primitive changes -/

/-- Each primitive change of the state keeps the bounds. -/
theorem sized_closed : Closed Sized where
  gate hg h := h.change (hgate := hg)
  station hf h := h.change (hfail := fun d => d.modify _ hf)
  asset h := h.change
  recordInsert hlt _ _ h := h.change (hrecords := fun _ => (Table.insert_length_le _ _ _).trans hlt)
  recordErase h := h.change (hrecords := (Table.erase_length_le _ _).trans)
  record _ h := h.change (hrecords := (Table.modify_length _ _ _).trans_le)
  slot _ h := h.change
  window hw h := h.change (hwindows := fun k => k.store _ (hw (k.windowOf _)))
  queue h := sized_queueAction h _
  flags h := h.change
  timebase ht h := h.change (htime := ht)
  stationInsert hv h := h.change (hfail := fun d => d.insert hv)
  stationErase h := h.change (hfail := fun d => d.erase _)
  assetInsert h := h.change
  assetErase h := h.change
  profiles h := h.change
  area h := h.change
  line hf h := h.change (hlines := fun k => k.modLine hf)
  intake hk h := h.change (hintake := hk)
  noticeTaken h := h.change
  flash h := h.change (hitems := (congrArg List.length (flashStep_queue _)).trans_le)
  alert h := h.change (hitems := (congrArg List.length (applyAlert_queue _ _)).trans_le)
  notices h := h.change
  link hv h := h.change (hframes := fun hb => hv.elim id (·.trans hb))
  saveCount {_ v _} hv hn h := h.change (hstore := fun k =>
    ⟨fun _ hw => by cases hw; exact hn.trans (k.save v hv), fun _ hw => by cases hw; exact k.captured v hv, k.image⟩)
  saveEnd h := h.change (hstore := fun k => ⟨fun _ hw => (nomatch hw), fun _ hw => (nomatch hw), k.image⟩)
  saveStart h := h.change (hstore := fun k => by
    refine ⟨fun _ hw => by cases hw; exact le_rfl, fun _ hw => by cases hw; exact capture_sized h.gate h.lines, fun i hi => ?_⟩
    obtain ⟨j, hj, rfl⟩ := Option.map_eq_some_iff.mp hi
    exact k.image j hj)
  saveDone h := by
    unfold completeSave
    split
    · exact h
    · rename_i v hv
      exact h.change (hstore := fun k =>
        ⟨fun _ hw => (nomatch hw), fun _ hw => (nomatch hw), fun _ hi => by cases hi; exact k.captured v hv⟩)
  tick h := h.change
  pending h := h.change
  powerOn h :=
    have c := startConfiguration_sized h.store
    { timebase := ⟨Nat.zero_le _, Nat.zero_le _, Nat.zero_le _, Nat.zero_lt_succ _⟩
      gate := ⟨Nat.zero_le _, c.settleTime⟩
      failures := failuresSized_of_map rfl fun _ => rfl
      lines := fun l => lineOf_powerOnState _ l ▸ resetLine_sized (c.lines l)
      intake := ⟨rfl, Nat.zero_le _, List.nodup_nil⟩
      records := Nat.zero_le _
      windows := fun _ he => nomatch he
      items := Nat.zero_le _
      frames := Nat.zero_le _
      save := fun _ hw => nomatch hw
      captured := fun _ hw => nomatch hw
      image := h.image }
  restart h := h.change (hfail := fun _ => failuresSized_of_map rfl fun _ => rfl)
    (hlines := fun k l => lineOf_restartState _ l ▸ resetLine_sized (k l).setting)
    (hintake := fun _ => ⟨rfl, Nat.zero_le _, List.nodup_nil⟩) (hrecords := fun _ => Nat.zero_le _)
    (hwindows := fun _ _ he => nomatch he) (hitems := fun _ => Nat.zero_le _) (hframes := fun _ => Nat.zero_le _)
  factory h := h.change (hgate := fun g => ⟨g.count, (by decide : 600 ≤ 3600)⟩) (hfail := fun _ _ he => nomatch he)
    (hlines := fun _ l => lineOf_factoryState _ l ▸ resetLine_sized (by decide))
    (hintake := fun _ => ⟨rfl, Nat.zero_le _, List.nodup_nil⟩) (hrecords := fun _ => Nat.zero_le _)
    (hwindows := fun _ _ he => nomatch he) (hitems := fun _ => Nat.zero_le _) (hframes := fun _ => Nat.zero_le _)

/-! ## What the bounds of the intake come to -/

/-- R58, R62: at most as many blocks wait for the Decoder as there are slots. -/
theorem IntakeSized.order_le {k : Intake} (h : IntakeSized k) : k.order.length ≤ 8 :=
  calc k.order.length ≤ k.order.length + k.decoder.blocks := Nat.le_add_right _ _
    _ ≤ k.slots.countP IntakeSlot.isFilled := h.order
    _ ≤ k.slots.length := List.countP_le_length
    _ = 8 := h.slots

/-- R59: a wait list that holds a line at most once holds no more than the four lines. -/
theorem IntakeSized.waiting_le {k : Intake} (h : IntakeSized k) : k.waiting.length ≤ 4 :=
  (List.subperm_of_subset h.waiting fun l _ => show l ∈ fieldLines by cases l <;> decide).length_le

end Sys2Proof.Machine

namespace Sys2Proof.Proofs

open Sys2Proof.Machine

/-- Settles O55: the bounds are closed under the primitive changes, so a step keeps them. -/
theorem stepKeepsSizes : Obligations.StepKeepsSizes :=
  ⟨fun _ _ h hs => step_closed sized_closed h hs, fun _ h => ⟨h.intake.order_le, h.intake.waiting_le⟩⟩

end Sys2Proof.Proofs
end

section
/-! PROOF. What is due is done before a command that is not itself a part of it (R19, R60, R62): after it nothing is due, and such a command
does it first. -/

namespace Sys2Proof.Machine

/-! ## The grants (R60) -/

/-- Where no grant is due, tries to make one change nothing. -/
theorem grants_stable {s : State} (h : grantDue s.intake = false) : ∀ l : List Nat, l.foldl (fun s _ => grantHead s) s = s
  | [] => rfl
  | _ :: l => by rw [List.foldl_cons, grantHead_stable h, grants_stable h l]

/-- As many tries as lines wait make every grant that is due. -/
theorem grants_done : ∀ (l : List Nat) (s : State), s.intake.waiting.length ≤ l.length →
    grantDue (l.foldl (fun s _ => grantHead s) s).intake = false
  | [], s, h => by simp [grantDue, List.eq_nil_of_length_eq_zero (Nat.le_zero.mp h)]
  | n :: l, s, h => by
    rw [List.foldl_cons]
    cases hd : grantDue (grantHead s).intake with
    | false => rw [grants_stable hd, hd]
    | true =>
      have hw := grantHead_waiting hd
      rw [List.length_cons] at h
      exact grants_done l _ (by omega)

theorem grantAll_done (s : State) : grantDue (grantAll s).intake = false := grants_done _ s (by simp)

theorem grantAll_tick (s : State) : (grantAll s).tick = s.tick :=
  foldl_closed (P := fun t => t.tick = s.tick) (fun t _ h => (congrArg State.tick (grantHead_frame t)).trans h) _ s rfl

/-! ## The taking of a block (R62) -/

theorem takeBlock_tick (s : State) : (takeBlock s).tick = s.tick := by
  unfold takeBlock
  split <;> rfl

/-- The taking of a block leaves slots and wait list, and with them the grants that are due, as they are. -/
theorem takeBlock_grantDue (s : State) : grantDue (takeBlock s).intake = grantDue s.intake := by
  unfold takeBlock
  split <;> rfl

/-! ## Settling -/

theorem settled_iff (s : State) : settled s = true ↔ s.tick = {} ∧ grantDue s.intake = false ∧ takeDue s.intake = false := by
  simp [settled, and_assoc]

/-- R19: after the completion of a tick no part of it is due. -/
theorem completeTick_tick (s : State) : (completeTick s).tick = {} := rfl

/-- What is due can be done: after it nothing is. -/
theorem settled_settle (s : State) : settled (settle s) = true := by
  unfold settle
  split
  · assumption
  · rw [settled_iff, takeBlock_tick, takeBlock_grantDue, grantAll_tick]
    refine ⟨?_, grantAll_done _, takeBlock_done _⟩
    split
    · assumption
    · exact completeTick_tick s

/-- Settling a second time changes nothing. -/
theorem settle_settle (s : State) : settle (settle s) = settle s := settle_of_settled (settled_settle s)

/-! ## The commands that settle first -/

/-- The command does what is due and then acts on the state that is left. -/
def SettlesFirst (c : Instr) : Prop := ∃ act : State → State, ∀ s, exec c s = .next (act (settle s))

theorem SettlesFirst.exec_settle {c : Instr} (h : SettlesFirst c) (s : State) : exec c s = exec c (settle s) := by
  obtain ⟨act, h⟩ := h
  rw [h, h, settle_settle]

/-- Where nothing is due, a command that settles first acts on the state as it stands. -/
theorem exec_settled {c : Instr} {act : State → State} {s : State} (hs : settled s = true)
    (hx : ∀ s, exec c s = .next (act (settle s)) := by exact fun _ => rfl) : exec c s = .next (act s) := by
  rw [hx, settle_of_settled hs]

theorem serve_settle (code : Nat) (own : List Byte → State → State × Served) (s : State) : serve code own (settle s) = serve code own s := by
  simp only [serve, settle_settle]

theorem serveUnknown_settle (s : State) : serveUnknown (settle s) = serveUnknown s := by
  simp only [serveUnknown, settle_settle]

/-- R169: a request is looked for after what is due has been done. -/
theorem settlesFirst_of_serve {c : Instr} {code : Nat} {own : List Byte → State → State × Served}
    (h : ∀ s, exec c s = .next (serve code own s)) : SettlesFirst c :=
  ⟨serve code own, fun s => by rw [h, serve_settle]⟩

/-- Log entries 3 and 5: the command is not a part of a tick, not SLOT_GRANT and not POWER_ON or RESET_PIN. -/
def OutsideTick (c : Instr) : Prop :=
  match c with
  | .powerOn | .resetPin | .slotGrant | .confirmTermReached _ _ | .countWindowExpiry _ _ | .clearTimeReached _ _ | .escalation _ _
  | .releaseTimerExpiry _ | .stormWindowRotation | .settlingEnd | .sweepIntervalExpiry _ | .saveTimeout => False
  | _ => True

/-- Each such command settles first. -/
theorem settlesFirst_of_outsideTick (c : Instr) (h : OutsideTick c) : SettlesFirst c := by
  cases c with
  | powerOn | resetPin | slotGrant | confirmTermReached | countWindowExpiry | clearTimeReached | escalation | releaseTimerExpiry
  | stormWindowRotation | settlingEnd | sweepIntervalExpiry | saveTimeout => exact h.elim
  | secondsTick | saveCompletion | qualificationComplete | qualificationTimeout | crystalEdgeLoss | crystalCycleMeasured | flashPhase
  | pollSend | replyTimeout | incompleteReplyGap | replyComplete | fieldCharacterReceived | applyEntry | consoleCharacterReceived
  | consoleFrameComplete | consoleGapExpiry | headNoticeSend | transmitComplete | consoleRateSwitch | restartReset
  | factoryDefaultsReset => exact ⟨_, fun _ => rfl⟩
  | decoderTakeBlock => exact ⟨id, fun _ => rfl⟩
  | unknownKindRequest => exact ⟨serveUnknown, fun s => congrArg Host.Outcome.next (serveUnknown_settle s).symm⟩
  | defineStation | removeStation | defineAsset | removeAsset | setProfile | setArea | readStation | readAsset | readProfile | setTime
  | clockRetry | setDaylightSource | setDaylight | setLine | startLine | stopLine | setSweepMode | interrogate | relearn | readRecord
  | listRecords | readIncident | listIncidents | breakOut | peek | listQueue | acknowledge | setAlert | setNotices | readStatus
  | setConsoleRate | saveSettings | restart | factoryDefaults => exact settlesFirst_of_serve fun _ => rfl

end Sys2Proof.Machine

namespace Sys2Proof.Proofs

open Sys2Proof.Machine

/-- Settles O2: each such command acts on the state that settling leaves, where nothing is due. -/
theorem commandsSettleFirst : Obligations.CommandsSettleFirst :=
  ⟨fun c s h => (settlesFirst_of_outsideTick c h).exec_settle s,
    fun s => ⟨settled_settle s, ((settled_iff _).mp (settled_settle s)).1, settle_of_settled⟩⟩

end Sys2Proof.Proofs
end

section
/-! PROOF. The clock monitor (R20 to R22) and the requests of the Timebase (R23, R24): the exits from QUALIFYING, the passing of time, and what
a measured cycle, a timeout and the loss of the crystal come to. -/

namespace Sys2Proof.Machine

/-! ## The exits from QUALIFYING (R21) -/

section
variable {s : State}

theorem takeExit_running (h : s.timebase.monitor ≠ .qualifying) : takeExit s = s := if_neg h

theorem takeExit_complete (h : s.timebase.monitor = .qualifying) (hc : Config.qualifyingCycles ≤ s.timebase.goodCycles) :
    takeExit s = enterMonitor .onCrystal s := by
  rw [takeExit, if_pos h, if_pos hc]

theorem takeExit_timeout (h : s.timebase.monitor = .qualifying) (hc : s.timebase.goodCycles < Config.qualifyingCycles)
    (he : qualifyingLimit ≤ s.timebase.elapsed) : takeExit s = failCrystal s := by
  rw [takeExit, if_pos h, if_neg (Nat.not_le_of_lt hc), if_pos he]

/-- R21: QUALIFYING goes on below 2048 good cycles and before the end of the 2 s. -/
structure Qualifies (t : Timebase) : Prop where
  monitor : t.monitor = .qualifying
  goodCycles : t.goodCycles < Config.qualifyingCycles
  elapsed : t.elapsed < qualifyingLimit

theorem takeExit_qualifies (h : Qualifies s.timebase) : takeExit s = s := by
  rw [takeExit, if_pos h.monitor, if_neg (Nat.not_le_of_lt h.goodCycles), if_neg (Nat.not_le_of_lt h.elapsed)]

/-! ## The passing of time (R20, R21) -/

theorem failCrystal_monitor (s : State) : (failCrystal s).timebase.monitor = .onInternal := rfl

/-- Once an exit has led out of QUALIFYING, time passes of the second alone. -/
theorem passTime_exited (d : Nat) {t : State} (hx : takeExit s = t) (h : t.timebase.monitor ≠ .qualifying) : passTime d s = addPhase d t := by
  simp only [passTime, hx, if_neg h]

theorem passTime_running (d : Nat) (h : s.timebase.monitor ≠ .qualifying) : passTime d s = addPhase d s :=
  passTime_exited d (takeExit_running h) h

theorem passTime_within {d : Nat} (h : Qualifies s.timebase) (hd : s.timebase.elapsed + d ≤ qualifyingLimit) :
    passTime d s = modTimebase (fun t => { t with phase := t.phase + d, elapsed := t.elapsed + d }) s := by
  simp only [passTime, takeExit_qualifies h, if_pos h.monitor, if_neg (Nat.not_lt_of_le hd)]

/-- Time that goes past the 2 s fails the crystal, whether they had run out before it or not. -/
theorem passTime_past {d : Nat} (h : s.timebase.monitor = .qualifying) (hc : s.timebase.goodCycles < Config.qualifyingCycles)
    (hd : qualifyingLimit < s.timebase.elapsed + d) : passTime d s = addPhase d (failCrystal s) := by
  by_cases he : s.timebase.elapsed < qualifyingLimit
  · simp only [passTime, takeExit_qualifies ⟨h, hc, he⟩, if_pos h, if_pos hd]
  · exact passTime_exited d (takeExit_timeout h hc (Nat.le_of_not_lt he)) (by rw [failCrystal_monitor]; decide)

/-- R20: the rest of the second, beside what was counted beyond it, is carried over. -/
theorem phase_carried (p n : Nat) : p + (n - p) - n = p - n := by omega

/-! ## A measured cycle (R21) -/

theorem goodCycle_iff (p : Nat) : goodCycle p = true ↔ 97 * Config.nominalPeriod ≤ 100 * p ∧ 100 * p ≤ 103 * Config.nominalPeriod := by
  simp only [goodCycle, Config.nominalPeriod, Bool.and_eq_true, decide_eq_true_eq]
  omega

theorem measureCycle_qualifies (p : Nat) (h : Qualifies s.timebase) : measureCycle p s =
    if qualifyingLimit < s.timebase.elapsed + p then passTime p s else modTimebase (countCycle p) (passTime p s) := by
  simp only [measureCycle, takeExit_qualifies h, h.monitor]

theorem measureCycle_within {p : Nat} (h : Qualifies s.timebase) (hp : s.timebase.elapsed + p ≤ qualifyingLimit) :
    measureCycle p s = { s with timebase := { s.timebase with
      goodCycles := if goodCycle p then s.timebase.goodCycles + 1 else 0
      elapsed := s.timebase.elapsed + p, phase := s.timebase.phase + p } } := by
  rw [measureCycle_qualifies p h, if_neg (Nat.not_lt_of_le hp), passTime_within h hp]
  rfl

theorem measureCycle_past {p : Nat} (h : Qualifies s.timebase) (hp : qualifyingLimit < s.timebase.elapsed + p) :
    measureCycle p s = addPhase p (failCrystal s) := by
  rw [measureCycle_qualifies p h, if_pos hp, passTime_past h.monitor h.goodCycles hp]

theorem measureCycle_onCrystal (p : Nat) (h : s.timebase.monitor = .onCrystal) : measureCycle p s = addPhase Config.nominalPeriod s := by
  simp [measureCycle, takeExit, h]

theorem measureCycle_onInternal (p : Nat) (h : s.timebase.monitor = .onInternal) : measureCycle p s = s := by
  simp [measureCycle, takeExit, h]

end

/-! ## The requests (R23, R24) -/

/-- R24: the offset of a wall time W makes the wall time W. -/
theorem offsetFor_wallTime {w r : Nat} (hw : w < 4294967296) (hr : r ≤ 4294967295) : (r + offsetFor w r) % Config.wallModulus = w := by
  simp only [offsetFor, Config.wallModulus]
  omega

/-- The wall time on which a reply leaves the part that has taken another offset. -/
theorem wallTime_replied (f : Frame) (r : Result) (data : List Byte) (a : AfterReply) (s : State) (v : Nat) :
    wallTime (withReply f r data a { s with timebase := { s.timebase with wallOffset := v, timeSet := true } }) =
      (s.timebase.runSecond + v) % Config.wallModulus := rfl

theorem offsetFor_lt (w r : Nat) : offsetFor w r < 4294967296 := Nat.mod_lt _ (by simp [Config.wallModulus])

theorem u32_lt (b : List Byte) (i : Nat) : u32 b i < 4294967296 := by
  have h1 := u16_lt b i
  have h2 := u16_lt b (i + 2)
  unfold u32
  omega

theorem ownSetTime_eq (b : List Byte) (s : State) : ownSetTime b s =
    ({ s with timebase := { s.timebase with wallOffset := offsetFor (u32 b 0) s.timebase.runSecond, timeSet := true } }, ok) := rfl

theorem ownClockRetry_eq (b : List Byte) (s : State) : ownClockRetry b s =
    if s.timebase.monitor = .onInternal then (enterMonitor .qualifying s, ok) else (s, refuse .state) := by
  by_cases h : s.timebase.monitor = .onInternal <;> simp [ownClockRetry, answer, firstRefusal, h]

end Sys2Proof.Machine

namespace Sys2Proof.Proofs

open Sys2Proof.Machine

/-- Settles O17: the three states of the monitor, and the three commands that leave one. -/
theorem clockMonitorFollowsCrystal : Obligations.ClockMonitorFollowsCrystal := by
  refine ⟨fun s p hs => ⟨fun hm hc he => ?_, fun hm => ?_, fun hm => ?_⟩, fun s hs hm hc => ?_, fun s hs hm hc hp => ?_, fun s hs hm => ?_⟩
  · -- a cycle measured in QUALIFYING
    have h : Qualifies s.timebase := ⟨hm, hc, he⟩
    rw [exec_settled (act := measureCycle p) hs]
    split
    · rename_i hp
      rw [measureCycle_within h hp]
      simp only [goodCycle_iff]
    · rename_i hp
      rw [measureCycle_past h (Nat.lt_of_not_le hp)]
      rfl
  · -- in ON-CRYSTAL
    rw [exec_settled (act := measureCycle p) hs, measureCycle_onCrystal p hm]
    rfl
  · -- in ON-INTERNAL
    rw [exec_settled (act := measureCycle p) hs, measureCycle_onInternal p hm]
  · -- QUALIFICATION_COMPLETE
    rw [exec_settled (act := completeQualification) hs, completeQualification, if_pos ⟨hm, hc.ge⟩]
    rfl
  · -- QUALIFICATION_TIMEOUT
    rw [exec_settled (act := timeOutQualification) hs, timeOutQualification, if_pos ⟨hm, hc, hp⟩]
    rfl
  · -- CRYSTAL_EDGE_LOSS
    rw [exec_settled (act := loseEdges) hs, loseEdges, if_pos hm]
    rfl

/-- Settles O18: the owner's answer in each state, and the offset that the wall time gives. -/
theorem timebaseRequests : Obligations.TimebaseRequests := by
  refine ⟨fun s f h => ?_, fun s f h hr => ?_⟩
  · rw [exec_presents h, ownClockRetry_eq]
    split
    · rfl
    · rw [reply_refuse]
  · exact ⟨_, exec_taken h (ownSetTime_eq f.body s),
      (wallTime_replied f _ _ _ s _).trans (offsetFor_wallTime (u32_lt f.body 0) hr), offsetFor_lt _ _, rfl⟩

end Sys2Proof.Proofs
end

section
/-! PROOF. SECONDS_TICK (R19, R20): the rest of the second passes, the run-second rises, and what the blocks take of the tick at once changes
neither Timebase, link, directory, intake nor queue. -/

namespace Sys2Proof.Machine

/-! ## The end of a second (R20) -/

section
variable {s : State}

theorem completeSecond_running (h : s.timebase.monitor ≠ .qualifying) :
    completeSecond s = { s with timebase := { s.timebase with phase := s.timebase.phase - fullSecond } } := by
  rw [completeSecond, passTime_running _ h]
  simp only [addPhase, modTimebase, phase_carried]

theorem completeSecond_within (h : Qualifies s.timebase) (hd : s.timebase.elapsed + (fullSecond - s.timebase.phase) ≤ qualifyingLimit) :
    completeSecond s = { s with timebase := { s.timebase with
      phase := s.timebase.phase - fullSecond, elapsed := s.timebase.elapsed + (fullSecond - s.timebase.phase) } } := by
  rw [completeSecond, passTime_within h hd]
  simp only [modTimebase, phase_carried]

theorem completeSecond_past (h : s.timebase.monitor = .qualifying) (hc : s.timebase.goodCycles < Config.qualifyingCycles)
    (hd : qualifyingLimit < s.timebase.elapsed + (fullSecond - s.timebase.phase)) :
    completeSecond s = { s with
      timebase := { s.timebase with phase := s.timebase.phase - fullSecond, monitor := .onInternal, goodCycles := 0, elapsed := 0 }
      link := { s.link with flags := { s.link.flags with clockFail := true } } } := by
  rw [completeSecond, passTime_past h hc hd]
  simp only [addPhase, failCrystal, raiseClockFail, modFlags, enterMonitor, modTimebase, phase_carried]

theorem completeSecond_qualified (h : s.timebase.monitor = .qualifying) (hc : Config.qualifyingCycles ≤ s.timebase.goodCycles) :
    completeSecond s = { s with timebase := { s.timebase with
      phase := s.timebase.phase - fullSecond, monitor := .onCrystal, goodCycles := 0, elapsed := 0 } } := by
  rw [completeSecond, passTime_exited _ (takeExit_complete h hc) (by simp [enterMonitor])]
  simp only [addPhase, enterMonitor, modTimebase, phase_carried]

end

/-! ## What the blocks take at once -/

/-- Directory, intake, queue, stored image and waiting commands are as they were. -/
structure SecondFrame (s t : State) : Prop where
  directory : t.directory = s.directory
  intake : t.intake = s.intake
  dispatch : t.dispatch = s.dispatch
  image : t.store.image = s.store.image
  pending : t.pending = s.pending

theorem SecondFrame.trans {s t u : State} (h : SecondFrame s t) (k : SecondFrame t u) : SecondFrame s u :=
  ⟨k.directory.trans h.directory, k.intake.trans h.intake, k.dispatch.trans h.dispatch, k.image.trans h.image,
    k.pending.trans h.pending⟩

/-- Beside that, Timebase and link are as they were: gate, lines, records and incident slots may have changed, the count of a save in progress,
and what of the tick is due. -/
structure OfferFrame (s t : State) : Prop extends SecondFrame s t where
  timebase : t.timebase = s.timebase
  link : t.link = s.link

theorem OfferFrame.refl (s : State) : OfferFrame s s := ⟨⟨rfl, rfl, rfl, rfl, rfl⟩, rfl, rfl⟩

theorem OfferFrame.trans {s t u : State} (h : OfferFrame s t) (k : OfferFrame t u) : OfferFrame s u :=
  ⟨h.toSecondFrame.trans k.toSecondFrame, k.timebase.trans h.timebase, k.link.trans h.link⟩

theorem modTick_offer (f : TickDue → TickDue) (s : State) : OfferFrame s (modTick f s) := ⟨⟨rfl, rfl, rfl, rfl, rfl⟩, rfl, rfl⟩

/-- Beside that, store and tick are as they were. -/
structure CountsFrame (s t : State) : Prop extends OfferFrame s t where
  store : t.store = s.store
  tick : t.tick = s.tick

theorem CountsFrame.refl (s : State) : CountsFrame s s := ⟨.refl s, rfl, rfl⟩

theorem CountsFrame.trans {s t u : State} (h : CountsFrame s t) (k : CountsFrame t u) : CountsFrame s u :=
  ⟨h.toOfferFrame.trans k.toOfferFrame, k.store.trans h.store, k.tick.trans h.tick⟩

theorem foldl_counts {α : Type} {f : State → α → State} (h : ∀ s a, CountsFrame s (f s a)) (l : List α) (s : State) :
    CountsFrame s (l.foldl f s) :=
  foldl_closed (P := CountsFrame s) (fun t a ht => ht.trans (h t a)) l s (.refl s)

theorem gateTick_counts (s : State) : CountsFrame s (gateTick s) := by
  unfold gateTick
  split <;> exact ⟨⟨⟨rfl, rfl, rfl, rfl, rfl⟩, rfl, rfl⟩, rfl, rfl⟩

theorem countRelease_counts (s : State) (f : Nat) : CountsFrame s (countRelease s f) := by
  unfold countRelease
  split <;> exact ⟨⟨⟨rfl, rfl, rfl, rfl, rfl⟩, rfl, rfl⟩, rfl, rfl⟩

theorem countInterval_counts (l : FieldLine) (s : State) : CountsFrame s (countInterval l s) := by
  unfold countInterval
  split <;> exact ⟨⟨⟨rfl, rfl, rfl, rfl, rfl⟩, rfl, rfl⟩, rfl, rfl⟩

theorem countLine_counts (s : State) (l : FieldLine) : CountsFrame s (countLine s l) := by
  unfold countLine
  split
  · exact .refl s
  · exact countInterval_counts l s

/-- R183: a tick that does not bring the save count to 0 abandons no save. -/
theorem saveTick_offer {s : State} (h : ∀ v, s.store.saving = some v → 1 < v.count) : OfferFrame s (saveTick s) := by
  unfold saveTick
  split
  · exact .refl s
  · rename_i v hv
    rw [if_neg (Nat.not_le_of_lt (h v hv))]
    exact ⟨⟨rfl, rfl, rfl, rfl, rfl⟩, rfl, rfl⟩

/-- A tick that has not the save's end due does not bring the save count to 0. -/
theorem saving_of_dueOf {q : Bool} {s : State} (h : (dueOf q s).save = false) : ∀ v, s.store.saving = some v → 1 < v.count := by
  intro v hv
  simpa [dueOf, hv] using h

/-- The blocks that the tick brings to no end take it, and those that it brings to one wait. -/
theorem countBlocks_offer (q : Bool) (s : State) : OfferFrame s (countBlocks (modTick (fun _ => dueOf q s) s)) := by
  have hgate : ∀ u : State, CountsFrame u (if u.tick.gate then u else gateTick u) := fun u => by
    split
    · exact .refl u
    · exact gateTick_counts u
  have hc := ((hgate (modTick (fun _ => dueOf q s) s)).trans (foldl_counts countRelease_counts feederNumbers _)).trans
    (foldl_counts countLine_counts fieldLines _)
  have ho := (modTick_offer (fun _ => dueOf q s) s).trans hc.toOfferFrame
  unfold countBlocks
  dsimp only
  generalize List.foldl countLine _ fieldLines = u at hc ho ⊢
  split
  · exact ho
  · rename_i hs
    refine ho.trans (saveTick_offer ?_)
    rw [hc.store]
    exact saving_of_dueOf (q := q) (s := s) (by rw [hc.tick] at hs; simpa using hs)

/-- The qualifier's way up to the first record that the tick brings to an end changes the counts of records alone. -/
theorem qualifyOn_offer (s : State) : OfferFrame s (qualifyOn s) := by
  unfold qualifyOn
  split
  · exact .refl s
  · rw [(qualifyUpTo_frame (dueKeys s) s).frame]
    exact ⟨⟨rfl, rfl, rfl, rfl, rfl⟩, rfl, rfl⟩

theorem clearIfDone_offer (s : State) : OfferFrame s (clearIfDone s) := by
  unfold clearIfDone
  split
  · exact modTick_offer _ s
  · exact .refl s

/-! ## The offer (R19) -/

/-- R38: the end of a second on the lines changes the lines alone. -/
theorem quietLines_offer (s : State) : OfferFrame s (quietLines s) := ⟨⟨rfl, rfl, rfl, rfl, rfl⟩, rfl, rfl⟩

/-- The rise of the run-second. -/
def riseSecond (s : State) : State := modTimebase (fun t => { t with runSecond := t.runSecond + 1 }) s

theorem riseSecond_frame (s : State) : SecondFrame s (riseSecond s) := ⟨rfl, rfl, rfl, rfl, rfl⟩

theorem completeSecond_secondFrame (s : State) : SecondFrame s (completeSecond s) := by
  rw [(completeSecond_frame s).frame]
  exact ⟨rfl, rfl, rfl, rfl, rfl⟩

theorem now_quietLines_completeSecond (s : State) : now (quietLines (completeSecond s)) = now s := by
  rw [now, (quietLines_offer _).timebase]
  exact (completeSecond_frame s).runSecond

theorem offerTick_holds (q : Bool) {s : State} (h : Config.maxRunSecond ≤ now s) : offerTick q s = quietLines (completeSecond s) := by
  simp only [offerTick, now_quietLines_completeSecond, if_pos h]

/-- The rest of a tick, once the blocks have taken it or wait: the qualifier takes it or waits too. -/
def offerQualifier (s : State) : State := clearIfDone (if qualifierWaits s.tick then s else qualifyOn s)

theorem offerQualifier_offer (s : State) : OfferFrame s (offerQualifier s) := by
  unfold offerQualifier
  split
  · exact clearIfDone_offer s
  · exact (qualifyOn_offer s).trans (clearIfDone_offer _)

/-- The state at which a tick is offered: the second has passed and the run-second has risen. -/
def nextSecond (s : State) : State := riseSecond (quietLines (completeSecond s))

theorem offerTick_offers (q : Bool) {s : State} (h : now s < Config.maxRunSecond) :
    offerTick q s = offerQualifier (countBlocks (modTick (fun _ => dueOf q (nextSecond s)) (nextSecond s))) := by
  simp only [offerTick, now_quietLines_completeSecond, if_neg (Nat.not_le_of_lt h)]
  rfl

/-- Below the last run-second the second that passes raises it, and the tick is offered. -/
theorem offerTick_frame (q : Bool) {s : State} (h : now s < Config.maxRunSecond) :
    SecondFrame s (offerTick q s) ∧ (offerTick q s).link = (completeSecond s).link ∧
      (offerTick q s).timebase = { (completeSecond s).timebase with runSecond := s.timebase.runSecond + 1 } := by
  have hc := completeSecond_secondFrame s
  have hq := quietLines_offer (completeSecond s)
  have hr := riseSecond_frame (quietLines (completeSecond s))
  have ho := (countBlocks_offer q (nextSecond s)).trans (offerQualifier_offer _)
  rw [offerTick_offers q h]
  refine ⟨hc.trans (hq.toSecondFrame.trans (hr.trans ho.toSecondFrame)), ho.link.trans ?_, ho.timebase.trans ?_⟩
  · exact (modTimebase_link _ _).trans hq.link
  · rw [nextSecond, riseSecond, modTimebase_timebase, hq.timebase, (completeSecond_frame s).runSecond]

end Sys2Proof.Machine

namespace Sys2Proof.Proofs

open Sys2Proof.Machine

/-- Settles O6: the second that passes, the offer of the tick, and the four cases in which a second ends. -/
theorem secondsTickRaisesRunSecond : Obligations.SecondsTickRaisesRunSecond := by
  refine ⟨fun q s hs => ?_, fun s => ⟨completeSecond_running, fun hm hc he => completeSecond_within ⟨hm, hc, he⟩,
    completeSecond_past, completeSecond_qualified⟩⟩
  have hx : exec (.secondsTick q) s = .next (offerTick q s) := exec_settled hs
  refine ⟨fun h => ?_, fun h => ?_⟩
  · obtain ⟨hf, hl, ht⟩ := offerTick_frame q h
    exact ⟨_, hx, ht, hl, hf.directory, hf.intake, hf.dispatch, hf.image, hf.pending⟩
  · rw [hx, offerTick_holds q h.ge]

end Sys2Proof.Proofs
end

section
/-! PROOF. The Daylight Gate (R27 to R31): the end of settling, the requests that set gate and source, and what an entry or a failed visit does
to the gate. -/

namespace Sys2Proof.Machine

/-! ## Settling (R28) -/

theorem setGate_same {s : State} {v : GateValue} (h : s.gate.value = v) : setGate v s = s := if_pos h

theorem setGate_other {s : State} {v : GateValue} (h : s.gate.value ≠ v) : setGate v s =
    { s with gate := { s.gate with value := v, settling := decide (s.gate.settleTime ≠ 0), count := s.gate.settleTime } } := if_neg h

@[simp] theorem setGate_directory (v : GateValue) (s : State) : (setGate v s).directory = s.directory := by
  unfold setGate; split <;> rfl
@[simp] theorem setGate_faults (v : GateValue) (s : State) : (setGate v s).faults = s.faults := by
  unfold setGate; split <;> rfl
@[simp] theorem setGate_incidents (v : GateValue) (s : State) : (setGate v s).incidents = s.incidents := by
  unfold setGate; split <;> rfl
@[simp] theorem setGate_dispatch (v : GateValue) (s : State) : (setGate v s).dispatch = s.dispatch := by
  unfold setGate; split <;> rfl
@[simp] theorem setGate_link (v : GateValue) (s : State) : (setGate v s).link = s.link := by
  unfold setGate; split <;> rfl

theorem setGate_value (v : GateValue) (s : State) : (setGate v s).gate.value = v := by
  unfold setGate
  split
  · assumption
  · rfl

theorem gateTick_ends {s : State} (hs : s.gate.settling = true) (hc : s.gate.count = 1) :
    gateTick s = { s with gate := { s.gate with settling := false, count := 0 } } := by
  simp [gateTick, hs, hc]

/-- The note that a tick is done changes what of the tick is due alone. -/
theorem clearIfDone_eq (s : State) : clearIfDone s = { s with tick := (clearIfDone s).tick } := by
  unfold clearIfDone
  split <;> rfl

/-! ## SET-DAYLIGHT and SET-DAYLIGHT-SOURCE (R30, R31) -/

/-- R30: the values that SET-DAYLIGHT takes. -/
theorem ownSetDaylight_value {b : List Byte} (h : u8 b 0 < 2) (s : State) : ownSetDaylight b s =
    if s.gate.source ≠ .console then (s, refuse .state) else (setGate (if u8 b 0 = 0 then .day else .night) s, ok) := by
  obtain h0 | h1 : u8 b 0 = 0 ∨ u8 b 0 = 1 := by omega
  · by_cases hs : s.gate.source = .console <;> simp [ownSetDaylight, decEnum, gateValues, answer, firstRefusal, h0, hs]
  · by_cases hs : s.gate.source = .console <;> simp [ownSetDaylight, decEnum, gateValues, answer, firstRefusal, h1, hs]

theorem ownSetDaylight_badValue {b : List Byte} (h : 2 ≤ u8 b 0) (s : State) : ownSetDaylight b s = (s, refuse .badValue) := by
  unfold ownSetDaylight decEnum gateValues
  obtain h2 | h3 := h.eq_or_lt
  · rw [← h2]; rfl
  · rw [List.getElem?_eq_none (show [GateValue.day, .night, .unknown].length ≤ u8 b 0 from h3)]

/-- R169: the oldest frame, of a request's kind and in its turn, with another body length than its kind's is refused before all else. -/
theorem serve_badLength {s : State} {f : Frame} {code : Nat} {k : RequestKind} (own : List Byte → State → State × Served)
    (hk : requestKind code = some k) (hs : settled s = true) (hf : s.link.requests.head? = some f) (hc : f.kind.toNat = code)
    (hm : mayServe s = true) (hl : f.body.length ≠ k.length) : serve code own s = withReply f .badLength [] .nothing s := by
  obtain ⟨rest, hr⟩ := List.head?_eq_some_iff.mp hf
  have hp : precheck k f s = some .badLength := if_pos hl
  simp [serve, settle_of_settled hs, hk, hr, hm, hc, hp, reply_refuse]

theorem parseSource_console {b : List Byte} (h : u16 b 3 ≤ 3600) (h0 : u8 b 0 = 0) (h1 : u8 b 1 = 0) (h2 : u8 b 2 = 0) :
    parseSource b = some (.console, u16 b 3) := by
  simp [parseSource, inRange, h, h0, h1, h2]

theorem parseSource_point {b : List Byte} (h : u16 b 3 ≤ 3600) (h0 : u8 b 0 = 1) (h1 : 1 ≤ u8 b 1) (h2 : u8 b 1 ≤ 120)
    (h3 : u8 b 2 ≤ 63) : parseSource b = some (.point (u8 b 1) (u8 b 2), u16 b 3) := by
  simp [parseSource, inRange, Config.maxStation, Config.maxPoint, h, h0, h1, h2, h3]

theorem ownSetDaylightSource_taken {b : List Byte} {s : State} {v : GateSource} {n : Nat} (hp : parseSource b = some (v, n))
    (hm : sourceMissing s v = false) : ownSetDaylightSource b s = (applySource v n s, ok) := by
  simp [ownSetDaylightSource, hp, hm, answer, firstRefusal]

theorem applySource_eq (v : GateSource) (n : Nat) (s : State) : applySource v n s = { s with gate :=
    if s.gate.source = v then { s.gate with settleTime := n }
    else { value := .unknown, settling := false, count := 0, source := v, settleTime := n } } := by
  by_cases h : s.gate.source = v
  · subst h; simp [applySource]
  · simp [applySource, clearGate, h]

/-! ## What entries and visits leave of the gate -/

theorem confirmIfFull_frame (key : Nat) (s : State) : TablesFrame s (confirmIfFull key s) := by
  unfold confirmIfFull
  split
  · exact .refl s
  · split
    · exact confirmRecord_frame key s
    · exact .refl s

theorem createRecord_gate (key w : Nat) (s : State) : (createRecord key w s).gate = s.gate := by
  unfold createRecord
  split
  · exact (confirmIfFull_frame key _).gate
  · rfl

theorem enterRestoring_frame (key : Nat) (s : State) : TablesFrame s (enterRestoring key s) :=
  (modRecord_frame key _ s).toTablesFrame.trans (takeTerms_frame key _)

theorem returnToActive_frame (key w : Nat) (s : State) : TablesFrame s (returnToActive key w s) :=
  (modRecord_frame key _ s).toTablesFrame.trans (takeTerms_frame key _)

theorem recur_frame (key w : Nat) (s : State) : TablesFrame s (recur key w s) :=
  (takeTerms_frame key s).trans ((modRecord_frame key _ _).toTablesFrame.trans
    ((queueAction_frame _ _).tables.trans (confirmIfFull_frame key _)))

theorem observeRecord_frame (key w : Nat) (p : Bool) (r : Record) (s : State) : TablesFrame s (observeRecord key w p r s) := by
  unfold observeRecord
  split
  · exact (modRecord_frame key _ s).toTablesFrame.trans (confirmIfFull_frame key _)
  · split
    · exact (removeRecord_frame key s).toTablesFrame
    · exact .refl s
  · exact (modRecord_frame key _ s).toTablesFrame
  · exact enterRestoring_frame key s
  · exact returnToActive_frame key w s
  · exact .refl s
  · exact recur_frame key w s
  · exact .refl s

/-- R94: an observation reads the gate and does not set it. -/
@[simp] theorem observe_gate (a : Nat) (c : Condition) (p : Bool) (w : Nat) (s : State) : (observe a c p w s).gate = s.gate := by
  unfold observe
  dsimp only
  split
  · rfl
  · split
    · split
      · exact createRecord_gate _ w s
      · rfl
    · exact (observeRecord_frame _ w p _ _).gate

@[simp] theorem observeAll_gate (a : Nat) (os : List Observation) (s : State) : (observeAll a os s).gate = s.gate :=
  foldl_closed (P := fun t => t.gate = s.gate) (fun t _ h => (observe_gate a _ _ _ t).trans h) os s rfl

@[simp] theorem writeEstimate_gate (key n : Nat) (s : State) : (writeEstimate key n s).gate = s.gate := rfl

@[simp] theorem judgedReading_gate (a : Nat) (x : Asset) (p : Profile) (v : Nat) (s : State) : (judgedReading a x p v s).gate = s.gate := by
  unfold judgedReading
  dsimp only
  split <;> simp

@[simp] theorem mainReading_gate (a v : Nat) (s : State) : (mainReading a v s).gate = s.gate := by
  unfold mainReading
  split
  · rfl
  · dsimp only
    split
    · rfl
    · split <;> simp [daytimeReading]
    · simp
    · simp

/-- R71: the classifier reads the gate and does not set it. -/
@[simp] theorem classify_gate (a : Nat) (r : Role) (d : EntryData) (s : State) : (classify a r d s).gate = s.gate := by
  unfold classify
  split <;> simp [auxReading, supplyReading, doorReading, detectReading]

/-- R66: an unused entry marks its outstation. -/
@[simp] theorem stationOf_markUnmapped_self (n : Nat) (s : State) :
    stationOf (markUnmapped n s) n = (stationOf s n).map (fun st => { st with unmapped := true }) := stationOf_modStation_self n _ s

/-- R66: an unused entry sets UNMAPPED. -/
@[simp] theorem markUnmapped_link (n : Nat) (s : State) :
    (markUnmapped n s).link = { s.link with flags := { s.link.flags with unmapped := true } } := rfl

/-- R64: a DIGITAL entry for the daylight point reaches the gate, and no other. -/
theorem reachesGate_iff {s : State} {n : Nat} {e : Entry} :
    reachesGate s n e = true ↔ s.gate.source = .point n e.point ∧ ∃ v edges, e.data = .digital v edges := by
  cases hd : e.data <;> simp [reachesGate, isGatePoint, hd]

theorem routeGate_unreached {s : State} {n : Nat} {e : Entry} (h : reachesGate s n e = false) : routeGate n e s = s := by
  cases hd : e.data with
  | analogue v => simp [routeGate, hd]
  | digital v edges =>
    have hp : isGatePoint s n e.point = false := by simpa [reachesGate, hd] using h
    simp [routeGate, hd, hp]

theorem routeGate_reached {s : State} {n v edges : Nat} {e : Entry} (h : s.gate.source = .point n e.point) (hd : e.data = .digital v edges) :
    routeGate n e s = setGate (if v = 0 then .day else .night) s := by
  simp [routeGate, hd, isGatePoint, h]

/-- R30: under source CONSOLE an entry does not reach the gate. -/
theorem applyOne_gate_console {s : State} (h : s.gate.source = .console) (b : Block) (e : Entry) : (applyOne b e s).gate = s.gate := by
  have hr : reachesGate s b.station e = false := by simp [← Bool.not_eq_true, reachesGate_iff, h]
  unfold applyOne
  split
  · rfl
  · split
    · rfl
    · dsimp only
      rw [routeGate_unreached hr, hr]
      split
      · exact classify_gate _ _ _ s
      · rfl

theorem openStation_frame (n : Nat) (s : State) : SlotsFrame s (openStation n s) :=
  have join : ∀ (s : State) (key : Nat), SlotsFrame s (joinSlot (stationSlot n) s key) :=
    fun s key => (modSlot_frame _ _ s).trans (modRecord_frame key _ _)
  (modSlot_frame _ _ s).trans ((foldl_slotsFrame join _ _).trans (queueAction_slotsFrame _ _))

/-- R29, R30: under source CONSOLE an outstation that falls silent does not take the gate along. -/
theorem becomeSilent_gate_console {s : State} (h : s.gate.source = .console) (n : Nat) : (becomeSilent n s).gate = s.gate := by
  have ho : (openStation n (modStation n (fun st => { st with state := .silent }) s)).gate = s.gate := (openStation_frame n _).gate
  unfold becomeSilent
  dsimp only
  split
  · exact ho
  · rename_i hp
    rw [ho, h] at hp
    cases hp

theorem visitFailed_gate_console {s : State} (h : s.gate.source = .console) (l : FieldLine) (n : Nat) : (visitFailed l n s).gate = s.gate := by
  unfold visitFailed
  split
  · rfl
  · dsimp only
    split
    · exact becomeSilent_gate_console (s := modStation n _ s) h n
    · rfl

/-! ## An entry that no asset takes (R65, R66) -/

/-- R65: a point mapped to none, or to a role of the other form, hands its entry to no asset. -/
theorem entryTarget_none {st : Station} {e : Entry}
    (h : ∀ a role, Table.find st.pointMap e.point = some (a, role) → formMatches role e.data = false) :
    entryTarget st e = none := by
  unfold entryTarget
  split
  · rename_i a role hf
    rw [h a role hf]; rfl
  · rfl

theorem applyOne_untaken {s : State} {b : Block} {e : Entry} {st : Station} (hst : stationOf s b.station = some st) (hs : st.state ≠ .silent)
    (ht : entryTarget st e = none) : applyOne b e s =
      if reachesGate s b.station e then routeGate b.station e s else markUnmapped b.station s := by
  simp only [applyOne, hst, if_neg hs, ht]
  cases hr : reachesGate s b.station e with
  | true => rfl
  | false => rw [routeGate_unreached hr]

/-- R62, R63: beside the entry's own effect, APPLY_ENTRY changes the intake. -/
theorem decodeStep_applies {s : State} {i n : Nat} {b : Block} {e : Entry} (hd : s.intake.decoder = .decoding i n)
    (hb : s.intake.slots[i]? = some (.filled b)) (he : b.entries[n]? = some e) :
    ∃ f, decodeStep s = modIntake f (applyOne b e s) := by
  simp only [decodeStep, hd, hb, he]
  split
  · exact ⟨_, rfl⟩
  · exact ⟨_, rfl⟩

end Sys2Proof.Machine

namespace Sys2Proof.Proofs

open Sys2Proof.Machine

/-- Settles O15: the gate takes its tick at count 1, and the rest is what of the tick is due. -/
theorem settlingEnds : Obligations.SettlingEnds := by
  intro s ht hs hc
  have hg : takeGate s = modTick (fun t => { t with gate := false }) { s with gate := { s.gate with settling := false, count := 0 } } := by
    rw [takeGate, if_pos ht, gateTick_ends hs hc]
  refine ⟨_, rfl, ?_⟩
  rw [clearIfDone_eq, hg]
  rfl

/-- Settles O20: a valid source is taken, and the gate is cleared where it is another one. -/
theorem setDaylightSourceReplacesSource : Obligations.SetDaylightSourceReplacesSource := by
  rintro s f v h hn (⟨rfl, h0, h1, h2⟩ | ⟨rfl, h0, h1, h2, h3, hst⟩)
  · rw [exec_taken h (ownSetDaylightSource_taken (parseSource_console hn h0 h1 h2) rfl), applySource_eq]
  · have hm : sourceMissing s (.point (u8 f.body 1) (u8 f.body 2)) = false := by simpa [sourceMissing] using hst
    rw [exec_taken h (ownSetDaylightSource_taken (parseSource_point hn h0 h1 h2 h3) hm), applySource_eq]

/-- Settles O19: the owner's answers in their order, the length before them, and the gate's readers that do not set it. -/
theorem setDaylightSetsGate : Obligations.SetDaylightSetsGate := by
  refine ⟨fun s f h => ?_, fun s f hs hf hc hm hl => ?_, fun s h => ⟨applyOne_gate_console h, visitFailed_gate_console h⟩⟩
  · split
    · rename_i hv
      exact exec_refused h (ownSetDaylight_badValue hv s)
    · rename_i hv
      have ho := ownSetDaylight_value (Nat.lt_of_not_le hv) s
      split
      · rename_i hc
        exact exec_refused h (ho.trans (if_pos hc))
      · rename_i hc
        exact exec_taken h (ho.trans (if_neg hc))
  · exact congrArg Host.Outcome.next (serve_badLength ownSetDaylight (k := ⟨0x23, 1, false⟩) rfl hs hf hc hm hl)

/-- Settles O34: the entry goes to the gate or to the mark of its outstation, and no further. -/
theorem entryReachesGateOrIsUnmapped : Obligations.EntryReachesGateOrIsUnmapped := by
  intro s i n b st e hs hd hb he hst hsil hmap
  obtain ⟨f, hstep⟩ := decodeStep_applies hd hb he
  refine ⟨_, (exec_settled hs).trans (congrArg Host.Outcome.next hstep), ?_⟩
  rw [applyOne_untaken hst hsil (entryTarget_none hmap)]
  cases hr : reachesGate s b.station e with
  | true =>
    obtain ⟨hg, v, edges, hv⟩ := reachesGate_iff.mp hr
    rw [if_pos rfl, routeGate_reached hg hv]
    refine ⟨setGate_faults _ s, setGate_incidents _ s, setGate_dispatch _ s, ?_, ?_⟩
    · rintro (hn | ⟨w, hw⟩)
      · exact absurd hg hn
      · rw [hv] at hw; cases hw
    · intro w edges' _ hw
      obtain ⟨rfl, rfl⟩ : v = w ∧ edges = edges' := by simpa [hv] using hw
      refine ⟨setGate_link _ s, setGate_directory _ s, setGate_value _ s, fun h => ?_, fun h => ?_⟩
      · rw [modIntake_gate, setGate_value] at h
        rw [setGate_same h, modIntake_gate]
      · rw [modIntake_gate, setGate_value] at h
        rw [setGate_other h]
        exact ⟨rfl, rfl⟩
  | false =>
    rw [if_neg Bool.false_ne_true]
    refine ⟨rfl, rfl, rfl, fun _ => ⟨rfl, markUnmapped_link _ s, ?_⟩, fun v edges hg hv => ?_⟩
    · exact (stationOf_markUnmapped_self _ s).trans (by rw [hst]; rfl)
    · exact absurd (reachesGate_iff.mpr ⟨hg, v, edges, hv⟩) (by simp [hr])

end Sys2Proof.Proofs
end

section
/-! PROOF. The laws of the line controllers and of the intake that polls, visits and sweeps turn on (R35, R47 to R51, R59, R60): what a change of
one line leaves as it is, what a request for a slot comes to, which outstation a sweep takes next, and what a visit boundary comes to. -/

namespace Sys2Proof.Machine

/-! ## One line -/

theorem modLine_modLine (l : FieldLine) (f g : LineController → LineController) (s : State) :
    modLine l g (modLine l f s) = modLine l (fun c => g (f c)) s := by cases l <;> rfl

@[simp] theorem lineOf_modStation (n : Nat) (f : Station → Station) (s : State) (l : FieldLine) : lineOf (modStation n f s) l = lineOf s l := rfl

@[simp] theorem stationOf_modLine (l : FieldLine) (f : LineController → LineController) (s : State) (n : Nat) :
    stationOf (modLine l f s) n = stationOf s n := rfl

/-- A command that acts on one line's controller. -/
theorem exec_modLine {c : Instr} {act : State → State} {s : State} {l : FieldLine} {f : LineController → LineController} (hs : settled s = true)
    (ha : act s = modLine l f s) (hx : ∀ s, exec c s = .next (act (settle s)) := by exact fun _ => rfl) :
    ∃ t, exec c s = .next t ∧ t = { s with lines := t.lines } ∧ (∀ m, m ≠ l → lineOf t m = lineOf s m) ∧ lineOf t l = f (lineOf s l) :=
  ⟨_, (exec_settled hs hx).trans (congrArg _ ha), rfl, fun _ => lineOf_modLine_ne f s, lineOf_modLine_self l f s⟩

/-- What a line's attempt may change: the outstations, the lines and the intake. -/
structure AttemptFrame (s t : State) : Prop where
  frame : t = { s with directory := { s.directory with stations := t.directory.stations }, lines := t.lines, intake := t.intake }

namespace AttemptFrame

variable {s t u : State}

theorem trans (h : AttemptFrame s t) (k : AttemptFrame t u) : AttemptFrame s u := ⟨by rw [k.frame, h.frame]⟩

theorem faults (h : AttemptFrame s t) : t.faults = s.faults := by rw [h.frame]

theorem incidents (h : AttemptFrame s t) : t.incidents = s.incidents := by rw [h.frame]

theorem dispatch (h : AttemptFrame s t) : t.dispatch = s.dispatch := by rw [h.frame]

theorem link (h : AttemptFrame s t) : t.link = s.link := by rw [h.frame]

theorem gate (h : AttemptFrame s t) : t.gate = s.gate := by rw [h.frame]

theorem assets (h : AttemptFrame s t) : t.directory.assets = s.directory.assets := by rw [h.frame]

theorem now (h : AttemptFrame s t) : Machine.now t = Machine.now s := by rw [h.frame]; rfl

theorem recordOf (h : AttemptFrame s t) (key : Nat) : Machine.recordOf t key = Machine.recordOf s key := by
  simp only [Machine.recordOf, h.faults]

theorem slotOf (h : AttemptFrame s t) (n : Nat) : Machine.slotOf t n = Machine.slotOf s n := by
  simp only [Machine.slotOf, h.incidents]

theorem assetOf (h : AttemptFrame s t) (a : Nat) : Machine.assetOf t a = Machine.assetOf s a := by
  simp only [Machine.assetOf, h.assets]

end AttemptFrame

theorem modStation_attempt (n : Nat) (f : Station → Station) (s : State) : AttemptFrame s (modStation n f s) := ⟨rfl⟩

theorem modLine_attempt (l : FieldLine) (f : LineController → LineController) (s : State) : AttemptFrame s (modLine l f s) := ⟨rfl⟩

/-- One line's controller and the intake alone have changed; the line's settings and the blocks that wait for the Decoder are as they were. -/
structure LineFrame (l : FieldLine) (s t : State) : Prop where
  frame : t = { s with lines := t.lines, intake := t.intake }
  others : ∀ m, m ≠ l → lineOf t m = lineOf s m
  settings : (lineOf t l).settings = (lineOf s l).settings
  order : t.intake.order = s.intake.order
  filled : ∀ (i : Nat) (b : Block), t.intake.slots[i]? = some (.filled b) ↔ s.intake.slots[i]? = some (.filled b)

namespace LineFrame

variable {l : FieldLine} {s t u : State}

theorem refl (l : FieldLine) (s : State) : LineFrame l s s := ⟨rfl, fun _ _ => rfl, rfl, rfl, fun _ _ => Iff.rfl⟩

theorem trans (h : LineFrame l s t) (k : LineFrame l t u) : LineFrame l s u :=
  ⟨by rw [k.frame, h.frame], fun m hm => (k.others m hm).trans (h.others m hm), k.settings.trans h.settings, k.order.trans h.order,
    fun i b => (k.filled i b).trans (h.filled i b)⟩

theorem directory (h : LineFrame l s t) : t.directory = s.directory := by rw [h.frame]

theorem tick (h : LineFrame l s t) : t.tick = s.tick := by rw [h.frame]

theorem attempt (h : LineFrame l s t) : AttemptFrame s t := ⟨by rw [h.frame]⟩

theorem stationOf (h : LineFrame l s t) (n : Nat) : Machine.stationOf t n = Machine.stationOf s n := by
  simp only [Machine.stationOf, h.directory]

end LineFrame

theorem modLine_lineFrame (l : FieldLine) {f : LineController → LineController} (s : State)
    (hf : ∀ c, (f c).settings = c.settings := by exact fun _ => rfl) : LineFrame l s (modLine l f s) :=
  ⟨rfl, fun _ => lineOf_modLine_ne f s, by rw [lineOf_modLine_self, hf], rfl, fun _ _ => Iff.rfl⟩

theorem modIntake_lineFrame (l : FieldLine) {f : Intake → Intake} (s : State) (ho : (f s.intake).order = s.intake.order)
    (hf : ∀ (i : Nat) (b : Block), (f s.intake).slots[i]? = some (.filled b) ↔ s.intake.slots[i]? = some (.filled b)) :
    LineFrame l s (modIntake f s) :=
  ⟨rfl, fun _ _ => rfl, rfl, ho, hf⟩

/-! ## Reservations (R59, R60) -/

/-- A reservation made of a FREE slot fills none. -/
theorem filled_set_reserved {slots : List IntakeSlot} {i : Nat} (l : FieldLine) (h : slots[i]? = some .free) (j : Nat) (b : Block) :
    (slots.set i (.reserved l))[j]? = some (.filled b) ↔ slots[j]? = some (.filled b) := by
  by_cases hj : i = j
  · subst hj; simp [List.getElem?_set, h]
  · rw [List.getElem?_set_ne hj]

theorem enterPolling_lineFrame (l : FieldLine) (s : State) : LineFrame l s (enterPolling l s) := modLine_lineFrame l s

theorem grantSlot_lineFrame {s : State} {i : Nat} (l : FieldLine) (h : s.intake.slots[i]? = some .free) : LineFrame l s (grantSlot l i s) :=
  (modIntake_lineFrame l s rfl (filled_set_reserved l h)).trans (enterPolling_lineFrame l _)

/-- R60: the return of a reservation empties no FILLED slot. -/
theorem returnSlot_lineFrame (l : FieldLine) (s : State) : LineFrame l s (returnSlot l s) := by
  refine modIntake_lineFrame l s rfl (fun i b => ?_)
  simp only [List.getElem?_map, Option.map_eq_some_iff]
  constructor
  · rintro ⟨v, hv, hb⟩
    split at hb
    · cases hb
    · exact hb ▸ hv
  · exact fun h => ⟨_, h, by simp⟩

theorem leaveWaitList_lineFrame (l : FieldLine) (s : State) : LineFrame l s (leaveWaitList l s) :=
  modIntake_lineFrame l s rfl (fun _ _ => Iff.rfl)

/-- R59: a FREE slot is granted at once, or the line waits for one. -/
theorem askSlot_cases (l : FieldLine) (s : State) :
    (∃ i, s.intake.slots[i]? = some .free ∧ askSlot l s = grantSlot l i s) ∨
      askSlot l s = modLine l (fun c => { c with state := .awaitSlot }) (modIntake (fun k => { k with waiting := joinWaitList l k.waiting }) s) := by
  unfold askSlot
  split
  · rename_i i _ hi
    exact .inl ⟨i, freeIndex_free hi, rfl⟩
  · exact .inr rfl

theorem askSlot_lineFrame (l : FieldLine) (s : State) : LineFrame l s (askSlot l s) := by
  obtain ⟨i, hi, h⟩ | h := askSlot_cases l s
  · rw [h]; exact grantSlot_lineFrame l hi
  · rw [h]; exact (modIntake_lineFrame l s rfl (fun _ _ => Iff.rfl)).trans (modLine_lineFrame l _)

theorem mem_joinWaitList (l : FieldLine) (w : List FieldLine) : l ∈ joinWaitList l w := by
  unfold joinWaitList
  split
  · assumption
  · simp

/-- R48: a line that asks for a slot enters POLLING with a reservation and waits out the guard, or it waits in AWAIT-SLOT. -/
theorem askSlot_line (l : FieldLine) (s : State) :
    (lineOf (askSlot l s) l = awaitGuard { lineOf s l with state := .polling } ∧ .reserved l ∈ (askSlot l s).intake.slots) ∨
      (lineOf (askSlot l s) l = { lineOf s l with state := .awaitSlot } ∧ l ∈ (askSlot l s).intake.waiting) := by
  obtain ⟨i, hi, h⟩ | h := askSlot_cases l s
  · obtain ⟨hlt, -⟩ := List.getElem?_eq_some_iff.mp hi
    rw [h]
    exact .inl ⟨lineOf_modLine_self l _ _, List.mem_set hlt _⟩
  · rw [h]
    exact .inr ⟨lineOf_modLine_self l _ _, mem_joinWaitList l _⟩

/-! ## Visits (R47 to R49) -/

theorem startExchange_lineFrame (l : FieldLine) (v : Visit) (s : State) : LineFrame l s (startExchange l v s) :=
  (modLine_lineFrame l s).trans (askSlot_lineFrame l _)

/-- R36, R48: the controller of a line whose exchange begins, and its reservation or its place in the wait list. -/
theorem startExchange_line (l : FieldLine) (v : Visit) (s : State) :
    (lineOf (startExchange l v s) l = awaitGuard { lineOf s l with visit := some { v with attempt := 1 }, state := .polling } ∧
        .reserved l ∈ (startExchange l v s).intake.slots) ∨
      (lineOf (startExchange l v s) l = { lineOf s l with visit := some { v with attempt := 1 }, state := .awaitSlot } ∧
        l ∈ (startExchange l v s).intake.waiting) := by
  have h := askSlot_line l (modLine l (fun c => { c with visit := some { v with attempt := 1 } }) s)
  rwa [lineOf_modLine_self] at h

/-- R48: the line of an exchange that begins waits out the guard with its reservation, or waits for one. -/
theorem startExchange_placed (l : FieldLine) (v : Visit) (s : State) :
    ((lineOf (startExchange l v s) l).state = .polling ∧ .reserved l ∈ (startExchange l v s).intake.slots ∧
        (lineOf (startExchange l v s) l).exchange = .guardWait) ∨
      ((lineOf (startExchange l v s) l).state = .awaitSlot ∧ l ∈ (startExchange l v s).intake.waiting) := by
  obtain ⟨h, hslot⟩ | ⟨h, hwait⟩ := startExchange_line l v s
  · exact .inl ⟨by rw [h]; rfl, hslot, by rw [h]; rfl⟩
  · exact .inr ⟨by rw [h], hwait⟩

/-- What the begin of an exchange says of the line's controller in both cases of `startExchange_line`. -/
structure ExchangeBegun (v : Visit) (c d : LineController) : Prop where
  visit : d.visit = some { v with attempt := 1 }
  state : d.state = .polling ∨ d.state = .awaitSlot
  list : d.list = c.list
  sweepPos : d.sweepPos = c.sweepPos
  between : d.between = c.between
  interval : d.interval = c.interval
  exchange : c.exchange = .guardWait → d.exchange = .guardWait

theorem startExchange_begun (l : FieldLine) (v : Visit) (s : State) : ExchangeBegun v (lineOf s l) (lineOf (startExchange l v s) l) := by
  obtain ⟨h, -⟩ | ⟨h, -⟩ := startExchange_line l v s
  · rw [h]; exact ⟨rfl, .inl rfl, rfl, rfl, rfl, rfl, fun _ => rfl⟩
  · rw [h]; exact ⟨rfl, .inr rfl, rfl, rfl, rfl, rfl, id⟩

/-! ## The next outstation of a sweep (R49) -/

theorem lowestAddress_none {es : List (Nat × Station)} (h : lowestAddress es = none) : es = [] := by
  cases es with
  | nil => rfl
  | cons e es =>
    unfold lowestAddress at h
    split at h
    · cases h
    · split at h <;> cases h

theorem lowestAddress_some {es : List (Nat × Station)} {e : Nat × Station} (h : lowestAddress es = some e) :
    e ∈ es ∧ ∀ f ∈ es, e.2.settings.address ≤ f.2.settings.address := by
  induction es generalizing e with
  | nil => cases h
  | cons d es ih =>
    unfold lowestAddress at h
    split at h
    · rename_i hn
      cases h
      simp [lowestAddress_none hn]
    · rename_i f hf
      obtain ⟨hm, hle⟩ := ih hf
      split at h <;> cases h
      · rename_i hlt
        exact ⟨List.mem_cons_of_mem _ hm, List.forall_mem_cons.mpr ⟨hlt.le, hle⟩⟩
      · rename_i hlt
        exact ⟨List.mem_cons_self, List.forall_mem_cons.mpr ⟨le_rfl, fun g hg => (Nat.not_lt.mp hlt).trans (hle g hg)⟩⟩

theorem mem_sweepStations {s : State} {l : FieldLine} {above : Nat} {e : Nat × Station} : e ∈ sweepStations s l above ↔
    e ∈ s.directory.stations ∧ e.2.settings.line = l ∧ e.2.settings.enabled = true ∧ above < e.2.settings.address := by
  simp [sweepStations, and_assoc]

/-- R49: a sweep has no next outstation exactly when no enabled one of the line lies above its position. -/
theorem nextStation_none_iff {s : State} {l : FieldLine} : nextStation s l = none ↔
    ∀ e ∈ s.directory.stations, e.2.settings.line = l → e.2.settings.enabled = true → e.2.settings.address ≤ (lineOf s l).sweepPos := by
  have hn : nextStation s l = none ↔ ∀ e, e ∉ sweepStations s l (lineOf s l).sweepPos :=
    ⟨fun h => by simp [lowestAddress_none h], fun h => by rw [nextStation, List.eq_nil_iff_forall_not_mem.mpr h]; rfl⟩
  simp only [hn, mem_sweepStations, not_and, Nat.not_lt]

/-- R49: the next outstation is the enabled one of the line with the lowest address above the sweep's position. -/
theorem nextStation_some {s : State} {l : FieldLine} {n : Nat} {st : Station} (h : nextStation s l = some (n, st)) :
    ((n, st) ∈ s.directory.stations ∧ st.settings.line = l ∧ st.settings.enabled = true) ∧
      ∀ e ∈ s.directory.stations, e.2.settings.line = l → e.2.settings.enabled = true → (lineOf s l).sweepPos < e.2.settings.address →
        st.settings.address ≤ e.2.settings.address := by
  obtain ⟨hm, hle⟩ := lowestAddress_some h
  obtain ⟨hmem, hline, hen, -⟩ := mem_sweepStations.mp hm
  exact ⟨⟨hmem, hline, hen⟩, fun e he hl hn ha => hle e (mem_sweepStations.mpr ⟨he, hl, hn, ha⟩)⟩

/-! ## A visit boundary (R49 to R51) -/

section
variable {again : State → State} {l : FieldLine} {s : State}

/-- R49: the oldest entry of the interrogation list is visited first. -/
theorem boundaryWith_listed {n : Nat} {rest : List Nat} (h : (lineOf s l).list = n :: rest) :
    boundaryWith again l s = beginVisit l n .list .snapshot (modLine l (fun c => { c with list := rest }) s) := by
  simp only [boundaryWith, h]

/-- R49: then the next outstation of the sweep. -/
theorem boundaryWith_next {n : Nat} {st : Station} (hl : (lineOf s l).list = []) (hb : (lineOf s l).between = false)
    (hn : nextStation s l = some (n, st)) : boundaryWith again l s = beginVisit l n .sweep (sweepKind st)
      (modLine l (fun c => { c with sweepPos := st.settings.address, visitMark := true }) s) := by
  simp [boundaryWith, hl, hb, hn]

/-- R51: with none left, a SINGLE sweep stops its line. -/
theorem boundaryWith_single (hl : (lineOf s l).list = []) (hb : (lineOf s l).between = false) (hn : nextStation s l = none)
    (hm : (lineOf s l).settings.mode = .single) : boundaryWith again l s = finishSingle l s := by
  simp [boundaryWith, hl, hb, hn, hm]

/-- R50, R51: a CONTINUOUS sweep that has visited none leaves its line at rest, between sweeps. -/
theorem boundaryWith_rests (hl : (lineOf s l).list = []) (hb : (lineOf s l).between = false) (hn : nextStation s l = none)
    (hm : (lineOf s l).settings.mode = .continuous) (hv : (lineOf s l).visitMark = false) :
    boundaryWith again l s = restLine l (modLine l (fun c => { c with between := true }) s) := by
  simp [boundaryWith, hl, hb, hn, hm, hv]

end

/-- A visit boundary changes one line and the intake's reservations, and the visit that it may begin is undecided and in its first attempt. -/
structure BoundaryFrame (l : FieldLine) (s t : State) : Prop extends LineFrame l s t where
  fresh : ∀ w, (lineOf t l).visit = some w → w.decided = false ∧ w.attempt = 1

theorem LineFrame.boundary {l : FieldLine} {s t u : State} (h : LineFrame l s t) (k : BoundaryFrame l t u) : BoundaryFrame l s u :=
  ⟨h.trans k.toLineFrame, k.fresh⟩

theorem beginVisit_boundary (l : FieldLine) (n : Nat) (o : VisitOrigin) (k : PollKind) (s : State) :
    BoundaryFrame l s (beginVisit l n o k s) := by
  refine ⟨startExchange_lineFrame l _ s, fun w hw => ?_⟩
  cases (startExchange_begun l _ s).visit.symm.trans hw
  exact ⟨rfl, rfl⟩

/-- A line that rests or stops has no visit. -/
theorem modLine_boundary (l : FieldLine) {f : LineController → LineController} (s : State) (hv : ∀ c, (f c).visit = none)
    (hf : ∀ c, (f c).settings = c.settings) : BoundaryFrame l s (modLine l f s) :=
  ⟨modLine_lineFrame l s hf, fun w hw => by rw [lineOf_modLine_self, hv] at hw; cases hw⟩

theorem restLine_boundary (l : FieldLine) (s : State) : BoundaryFrame l s (restLine l s) := modLine_boundary l s (fun _ => rfl) (fun _ => rfl)

theorem finishSingle_boundary (l : FieldLine) (s : State) : BoundaryFrame l s (finishSingle l s) :=
  modLine_boundary l s (fun _ => rfl) (fun _ => rfl)

theorem boundaryWith_boundary {again : State → State} {l : FieldLine} (ha : ∀ s, BoundaryFrame l s (again s)) (s : State) :
    BoundaryFrame l s (boundaryWith again l s) := by
  unfold boundaryWith
  dsimp only
  split
  · exact (modLine_lineFrame l s).boundary (beginVisit_boundary l _ _ _ _)
  · split
    · split
      · exact ha s
      · exact restLine_boundary l s
    · split
      · exact (modLine_lineFrame l s).boundary (beginVisit_boundary l _ _ _ _)
      · split
        · exact finishSingle_boundary l s
        · refine (modLine_lineFrame l (f := fun c => { c with between := true }) s).boundary ?_
          split
          · exact ha _
          · exact restLine_boundary l _

theorem startSweep_boundary (l : FieldLine) (s : State) : BoundaryFrame l s (startSweep l s) :=
  (modLine_lineFrame l s).boundary (boundaryWith_boundary (restLine_boundary l) _)

theorem visitBoundary_boundary (l : FieldLine) (s : State) : BoundaryFrame l s (visitBoundary l s) :=
  boundaryWith_boundary (startSweep_boundary l) s

theorem endVisit_boundary (l : FieldLine) (s : State) : BoundaryFrame l s (endVisit l s) :=
  (modLine_lineFrame l s).boundary (visitBoundary_boundary l _)

end Sys2Proof.Machine
end

section
/-! PROOF. The attempts of an exchange (R36 to R39, R45): the guard and the poll that follows it, the characters of a reply, and an attempt that
fails. -/

namespace Sys2Proof.Machine

/-! ## The poll (R36, R179) -/

/-- R165: a character takes 10 bit times. -/
theorem frameBits_length (chars : List Byte) : (frameBits chars).length = 10 * chars.length := by
  induction chars with
  | nil => rfl
  | cons b chars ih => simp [frameBits, characterBits] at ih ⊢; omega

theorem fieldFrame_length (a : Nat) (c : Byte) (body : List Byte) : (fieldFrame a c body).length = 6 + body.length := by
  simp [fieldFrame, enc8, enc16]; omega

/-- R36: a poll takes 60 bit times. -/
theorem pollFrame_bits (v : Visit) (st : Station) : (frameBits (pollFrame v st)).length = 60 := by
  rw [frameBits_length, pollFrame, fieldFrame_length]; rfl

/-- R36: a POLL carries the last accepted toggle; a SNAPSHOT carries MORE and the toggle of its blocks in a continuation. -/
theorem pollFrame_eq (v : Visit) (st : Station) : pollFrame v st = fieldFrame st.settings.address (match v.kind with
    | .poll => encControl .poll st.toggle false
    | .snapshot => encControl .snapshot (v.decided && decide (v.snapshots % 2 = 1)) v.decided) [] := by
  unfold pollFrame pollToggle pollMore
  cases v.kind <;> rfl

/-! ## Bit times (R36, R38) -/

/-- R38: bit times that reach the guard's end begin the poll with what is left of them; any before only count. -/
theorem guardBits_poll (poll : List Byte) (q : Nat) (c : LineController) : guardBits (some poll) q c =
    if c.quiet + q < c.settings.guard then { c with quiet := c.quiet + q }
    else driveBits poll (q - (c.settings.guard - c.quiet)) { c with quiet := max c.quiet c.settings.guard } := by
  simp only [guardBits, ← Nat.not_lt, ite_not]

theorem pollDue_polling {s : State} {l : FieldLine} {v : Visit} {st : Station} (hp : (lineOf s l).state = .polling)
    (hv : (lineOf s l).visit = some v) (hst : stationOf s v.station = some st) : pollDue s l = some (pollFrame v st) := by
  simp [pollDue, hp, hv, hst]

theorem pollDue_none {s : State} {l : FieldLine} (h : (lineOf s l).state ≠ .polling) : pollDue s l = none := if_neg h

theorem sendPoll_guardWait {s : State} {l : FieldLine} (h : (lineOf s l).exchange = .guardWait) (q : Nat) :
    sendPoll l q s = modLine l (guardBits (pollDue s l) q) s := by
  simp only [sendPoll, h]

theorem sendPoll_sending {s : State} {l : FieldLine} {poll : List Byte} {bits : Nat} (hp : (lineOf s l).state = .polling)
    (h : (lineOf s l).exchange = .sending poll bits) (q : Nat) : sendPoll l q s = modLine l (driveBits poll (bits + q)) s := by
  simp only [sendPoll, h, hp, if_true]

/-! ## A character of a reply (R37, R38) -/

theorem replyChars_polling {c : LineController} {chars : List Byte} (hp : c.state = .polling) (he : c.exchange = .reply chars) :
    replyChars c = some chars := by
  simp [replyChars, hp, he]

theorem replyChars_some {c : LineController} {chars : List Byte} (h : replyChars c = some chars) :
    c.state = .polling ∧ c.exchange = .reply chars := by
  unfold replyChars at h
  split at h
  · rename_i hp he
    cases h
    exact ⟨hp, he⟩
  · cases h

/-- R37: the character joins the reply. -/
theorem fieldCharacter_joins {s : State} {l : FieldLine} {chars : List Byte} (h : replyChars (lineOf s l) = some chars)
    (hh : replyHeld chars = false) (ht : replyTooLong chars = false) (b : Byte) :
    fieldCharacter l b s = modLine l (fun c => { breakQuiet c with exchange := .reply (chars ++ [b]) }) s := by
  simp [fieldCharacter, h, hh, ht]

/-- R37: with no reply awaited, or one that takes no more characters, the character is discarded. -/
theorem fieldCharacter_discarded {s : State} {l : FieldLine}
    (h : ∀ chars, replyChars (lineOf s l) = some chars → replyHeld chars = true ∨ replyTooLong chars = true) (b : Byte) :
    fieldCharacter l b s = modLine l breakQuiet s := by
  unfold fieldCharacter
  dsimp only
  split
  · rename_i chars hc
    exact if_pos (by simpa using h chars hc)
  · rfl

/-! ## A failed attempt (R39, R45) -/

/-- R45: with attempts left, the next attempt of the exchange waits out the guard. -/
theorem failAttempt_retries {s : State} {l : FieldLine} {v : Visit} (hv : (lineOf s l).visit = some v)
    (ha : v.attempt ≤ (lineOf s l).settings.retries) (cause : FailureCause) : failAttempt l cause s =
      modLine l (fun c => { awaitGuard (breakQuiet c) with visit := some { v with attempt := v.attempt + 1 } })
        (modStation v.station (fun x => { x with lastCause := some cause }) s) := by
  have hlt : v.attempt < (lineOf s l).settings.retries + 1 := Nat.lt_succ_of_le ha
  simp only [failAttempt, hv, lineOf_modLine_self, lineOf_modStation, modLine_modLine]
  exact if_pos hlt

namespace Awaits

variable {s : State} {l : FieldLine} {chars : List Byte} {v : Visit} {st : Station}

theorem awaited (h : Awaits s l chars v st) : replyChars (lineOf s l) = some chars := replyChars_polling h.polling h.received

theorem timeoutReply (h : Awaits s l [] v st) : Machine.timeoutReply l s = failAttempt l .timeout s := by
  simp only [Machine.timeoutReply, h.awaited]

theorem gapReply (h : Awaits s l chars v st) (hne : chars ≠ []) (hh : replyHeld chars = false) :
    Machine.gapReply l s = failAttempt l .form s := by
  obtain ⟨b, rest, rfl⟩ := List.exists_cons_of_ne_nil hne
  simp [Machine.gapReply, h.awaited, hh]

/-- R39: a reply of a wrong CRC is no contact, and the attempt fails with CHECK. -/
theorem completeReply_check (h : Awaits s l chars v st) (hh : replyHeld chars = true) (hc : replyCrcGood chars = false) :
    completeReply l s = failAttempt l .check s := by
  simp [completeReply, h.awaited, h.visit, hh, h.station, isContact, judgeReply, hc]

end Awaits

end Sys2Proof.Machine

namespace Sys2Proof.Proofs

open Sys2Proof.Machine

/-- Settles O21: the bit times of POLL_SEND act on the controller of their line alone. -/
theorem pollIsDrivenAfterGuard : Obligations.PollIsDrivenAfterGuard := by
  refine ⟨fun s l q hs hp hg => ?_, fun s l q v st hs hp hg hv hst => ?_, fun s l q bits poll hs hp he => ?_⟩
  · obtain ⟨t, hx, hf, ho, hl⟩ := exec_modLine (c := .pollSend l q) hs (sendPoll_guardWait hg q)
    exact ⟨t, hx, hf, ho, by rw [hl, pollDue_none hp]; rfl⟩
  · obtain ⟨t, hx, hf, ho, hl⟩ := exec_modLine (c := .pollSend l q) hs (sendPoll_guardWait hg q)
    rw [pollDue_polling hp hv hst, guardBits_poll, driveBits, pollFrame_bits, pollFrame_eq] at hl
    exact ⟨t, hx, hf, ho, hl⟩
  · obtain ⟨t, hx, hf, ho, hl⟩ := exec_modLine (c := .pollSend l q) hs (sendPoll_sending hp he q)
    exact ⟨t, hx, hf, ho, by rw [hl, driveBits, frameBits_length]⟩

/-- Settles O22: the character joins the reply or is discarded, and either way the quiet begins again. -/
theorem fieldCharacterIsReceived : Obligations.FieldCharacterIsReceived := by
  intro s l b hs
  by_cases hj : ∃ chars, replyChars (lineOf s l) = some chars ∧ replyHeld chars = false ∧ replyTooLong chars = false
  · obtain ⟨chars, hc, hh, ht⟩ := hj
    obtain ⟨hp, he⟩ := replyChars_some hc
    obtain ⟨t, hx, hf, ho, hl⟩ := exec_modLine (c := .fieldCharacterReceived l b) hs (fieldCharacter_joins hc hh ht b)
    refine ⟨t, hx, hf, ho, fun cs _ hcs _ _ => ?_, fun cs hcs hor => ?_, fun hor => ?_⟩
    · cases he.symm.trans hcs
      exact hl
    · cases he.symm.trans hcs
      simp [hh, ht] at hor
    · simp [hp, he] at hor
  · have hd : ∀ chars, replyChars (lineOf s l) = some chars → replyHeld chars = true ∨ replyTooLong chars = true := by
      simpa [← Bool.not_eq_false, ← not_and_or] using hj
    obtain ⟨t, hx, hf, ho, hl⟩ := exec_modLine (c := .fieldCharacterReceived l b) hs (fieldCharacter_discarded hd b)
    refine ⟨t, hx, hf, ho, fun cs hp hcs hh ht => ?_, fun _ _ _ => hl, fun _ => hl⟩
    exact absurd ⟨cs, replyChars_polling hp hcs, hh, ht⟩ hj

/-- Settles O23: each of the three causes fails the attempt, and the next one begins. -/
theorem failedAttemptIsRetried : Obligations.FailedAttemptIsRetried := by
  intro s l chars v st c cause h ha hc
  have hx : exec c s = .next (failAttempt l cause s) := by
    obtain ⟨rfl, rfl, rfl⟩ | ⟨rfl, hne, hh, rfl⟩ | ⟨rfl, hh, hcrc, rfl⟩ := hc
    · rw [exec_settled (act := timeoutReply l) h.settled, h.timeoutReply]
    · rw [exec_settled (act := gapReply l) h.settled, h.gapReply hne hh]
    · rw [exec_settled (act := completeReply l) h.settled, h.completeReply_check hh hcrc]
  rw [failAttempt_retries h.visit ha] at hx
  exact ⟨_, hx, rfl, rfl, lineOf_modLine_self l _ _, fun _ hm => lineOf_modLine_ne _ _ hm⟩

end Sys2Proof.Proofs
end

section
/-! PROOF. Sweeps and the requests of the lines (R34, R49 to R55): the start of a sweep at a tick and at START-LINE, STOP-LINE, SET-LINE,
SET-SWEEP-MODE and INTERROGATE. -/

namespace Sys2Proof.Machine

/-! ## The start of a sweep (R50, R51) -/

/-- R50: what a sweep's start does to its line before the visit boundary. -/
def sweepBegun (c : LineController) : LineController :=
  { c with sweepPos := 0, visitMark := false, between := false, interval := c.settings.interval }

theorem startSweep_eq (l : FieldLine) (s : State) : startSweep l s = boundaryWith (restLine l) l (modLine l sweepBegun s) := rfl

/-- R49 to R51: the controller of a line after the start of a sweep, by the line's settings and the outstation table: it rests or has stopped, for
want of an outstation to visit, or it visits the enabled outstation of the lowest address. -/
structure SweepStarted (l : FieldLine) (v : LineSettings) (stations : Table Station) (d : LineController) : Prop where
  settings : d.settings = v
  unvisited : d.visit = none →
    (v.mode = .continuous → d.state = .resting ∧ d.between = true ∧ d.interval = v.interval) ∧
    (v.mode = .single → d.state = .stopped ∧ d.between = false ∧ d.interval = 0) ∧
    ∀ e ∈ stations, e.2.settings.line = l → e.2.settings.enabled = true → e.2.settings.address = 0
  visited : ∀ w, d.visit = some w →
    w.origin = .sweep ∧ w.attempt = 1 ∧ w.accepted = 0 ∧ w.decided = false ∧ d.between = false ∧ d.interval = v.interval ∧
    (d.state = .polling ∨ d.state = .awaitSlot) ∧
    ∃ st, (w.station, st) ∈ stations ∧ st.settings.line = l ∧ st.settings.enabled = true ∧
      d.sweepPos = st.settings.address ∧ w.kind = (if st.state = .online then .poll else .snapshot) ∧
      ∀ e ∈ stations, e.2.settings.line = l → e.2.settings.enabled = true → 0 < e.2.settings.address →
        st.settings.address ≤ e.2.settings.address

section
variable {l : FieldLine} {s : State}

theorem startSweep_next {n : Nat} {st : Station} (hl : (lineOf s l).list = []) (hn : nextStation (modLine l sweepBegun s) l = some (n, st)) :
    startSweep l s = beginVisit l n .sweep (sweepKind st)
      (modLine l (fun c => { sweepBegun c with sweepPos := st.settings.address, visitMark := true }) s) := by
  have hb := lineOf_modLine_self l sweepBegun s
  rw [startSweep_eq, boundaryWith_next (by rw [hb]; exact hl) (by rw [hb]; rfl) hn, modLine_modLine]

theorem startSweep_single (hl : (lineOf s l).list = []) (hn : nextStation (modLine l sweepBegun s) l = none)
    (hm : (lineOf s l).settings.mode = .single) :
    startSweep l s = modLine l (fun c => { sweepBegun c with state := .stopped, visit := none, interval := 0 }) s := by
  have hb := lineOf_modLine_self l sweepBegun s
  rw [startSweep_eq, boundaryWith_single (by rw [hb]; exact hl) (by rw [hb]; rfl) hn (by rw [hb]; exact hm), finishSingle, modLine_modLine]

theorem startSweep_rests (hl : (lineOf s l).list = []) (hn : nextStation (modLine l sweepBegun s) l = none)
    (hm : (lineOf s l).settings.mode = .continuous) :
    startSweep l s = modLine l (fun c => { sweepBegun c with between := true, state := .resting, visit := none }) s := by
  have hb := lineOf_modLine_self l sweepBegun s
  rw [startSweep_eq, boundaryWith_rests (by rw [hb]; exact hl) (by rw [hb]; rfl) hn (by rw [hb]; exact hm) (by rw [hb]; rfl), restLine,
    modLine_modLine, modLine_modLine]

/-- R50: a sweep begins at address 0, so the first boundary finds none only where no enabled outstation has another address. -/
theorem sweepBegun_unvisited (hn : nextStation (modLine l sweepBegun s) l = none) :
    ∀ e ∈ s.directory.stations, e.2.settings.line = l → e.2.settings.enabled = true → e.2.settings.address = 0 := by
  intro e he hl hen
  have hle := nextStation_none_iff.mp hn e he hl hen
  rw [lineOf_modLine_self] at hle
  exact Nat.le_zero.mp hle

/-- R50, R51: what the start of a sweep comes to on a line with nothing listed. -/
theorem startSweep_started (hl : (lineOf s l).list = []) :
    SweepStarted l (lineOf s l).settings s.directory.stations (lineOf (startSweep l s) l) := by
  have hs := (startSweep_boundary l s).settings
  cases hn : nextStation (modLine l sweepBegun s) l with
  | some e =>
    obtain ⟨n, st⟩ := e
    obtain ⟨⟨hmem, hline, hen⟩, hlow⟩ := nextStation_some hn
    rw [lineOf_modLine_self] at hlow
    have hbegun := startExchange_begun l { station := n, origin := .sweep, kind := sweepKind st }
      (modLine l (fun c => { sweepBegun c with sweepPos := st.settings.address, visitMark := true }) s)
    rw [lineOf_modLine_self] at hbegun
    rw [startSweep_next hl hn] at hs ⊢
    refine ⟨hs, fun h => (nomatch hbegun.visit.symm.trans h), fun w hw => ?_⟩
    cases hbegun.visit.symm.trans hw
    exact ⟨rfl, rfl, rfl, rfl, hbegun.between, hbegun.interval, hbegun.state, st, hmem, hline, hen, hbegun.sweepPos, rfl, hlow⟩
  | none =>
    cases hm : (lineOf s l).settings.mode with
    | single =>
      rw [startSweep_single hl hn hm, lineOf_modLine_self]
      exact ⟨rfl, fun _ => ⟨fun h => (nomatch hm.symm.trans h), fun _ => ⟨rfl, rfl, rfl⟩, sweepBegun_unvisited hn⟩,
        fun _ hw => (nomatch hw)⟩
    | continuous =>
      rw [startSweep_rests hl hn hm, lineOf_modLine_self]
      exact ⟨rfl, fun _ => ⟨fun _ => ⟨rfl, rfl, rfl⟩, fun h => (nomatch hm.symm.trans h), sweepBegun_unvisited hn⟩,
        fun _ hw => (nomatch hw)⟩

end

/-! ## The tick of a line (R50, R59) -/

/-- What the parts of a tick that other lines take leave as it is for line l: its controller, its own part of the tick, the directory and the
fault table. -/
structure KeepsLine (l : FieldLine) (s t : State) : Prop where
  line : lineOf t l = lineOf s l
  due : l ∈ t.tick.lines ↔ l ∈ s.tick.lines
  directory : t.directory = s.directory
  faults : t.faults = s.faults

theorem KeepsLine.refl (l : FieldLine) (s : State) : KeepsLine l s s := ⟨rfl, Iff.rfl, rfl, rfl⟩

theorem KeepsLine.trans {l : FieldLine} {s t u : State} (h : KeepsLine l s t) (k : KeepsLine l t u) : KeepsLine l s u :=
  ⟨k.line.trans h.line, k.due.trans h.due, k.directory.trans h.directory, k.faults.trans h.faults⟩

theorem LineFrame.keepsLine {m l : FieldLine} {s t : State} (h : LineFrame m s t) (hm : m ≠ l) : KeepsLine l s t :=
  ⟨h.others l hm.symm, by rw [h.tick], h.directory, h.attempt.faults⟩

theorem countInterval_lineFrame (l : FieldLine) (s : State) : LineFrame l s (countInterval l s) := by
  unfold countInterval
  split
  · exact .refl l s
  · exact modLine_lineFrame l s

/-- The tick of one line that is due no longer. -/
def tickTaken (l : FieldLine) (s : State) : State := modTick (fun t => { t with lines := t.lines.filter (fun m => decide (m ≠ l)) }) s

@[simp] theorem lineOf_tickTaken (l m : FieldLine) (s : State) : lineOf (tickTaken m s) l = lineOf s l := rfl

theorem takeLine_keepsLine {m l : FieldLine} (hm : m ≠ l) (s : State) : KeepsLine l s (takeLine m s) := by
  have htick : KeepsLine l s (tickTaken m s) := ⟨rfl, by simp [tickTaken, hm.symm], rfl, rfl⟩
  have hcount := countInterval_lineFrame m (tickTaken m s)
  unfold takeLine
  split
  · refine htick.trans (LineFrame.keepsLine (m := m) ?_ hm)
    dsimp only
    split
    · exact hcount.trans (startSweep_boundary m _).toLineFrame
    · exact hcount
  · exact .refl l s

theorem takeOthers_keepsLine {l : FieldLine} (ms : List FieldLine) (h : ∀ m ∈ ms, m ≠ l) (s : State) :
    KeepsLine l s (ms.foldl (fun s m => takeLine m s) s) := by
  induction ms generalizing s with
  | nil => exact .refl l s
  | cons m ms ih =>
    obtain ⟨hm, hms⟩ := List.forall_mem_cons.mp h
    exact (takeLine_keepsLine hm s).trans (ih hms _)

/-- R59: the lines before line l take their part of the tick first, and leave line l's to it. -/
theorem takeLines_due {l : FieldLine} {s : State} (h : l ∈ s.tick.lines) : ∃ u, KeepsLine l s u ∧ takeLines l s = takeLine l u := by
  refine ⟨_, takeOthers_keepsLine (fieldLines.takeWhile (fun m => decide (m ≠ l))) (fun m hm => ?_) s, ?_⟩
  · simpa using List.mem_takeWhile_imp hm
  · rw [takeLines, if_pos h, linesUpTo, List.foldl_append]; rfl

/-- R50: the tick that leaves a RESTING line's interval count at 0 starts a sweep. -/
theorem takeLine_sweeps {l : FieldLine} {s : State} (hd : l ∈ s.tick.lines) (hr : (lineOf s l).state = .resting)
    (hi : (lineOf s l).interval ≤ 1) : takeLine l s = startSweep l (countInterval l (tickTaken l s)) := by
  have hnext : sweepNext (lineOf s l) = true := by simp [sweepNext, hr, hi]
  rw [takeLine, if_pos hd]
  exact if_pos hnext

theorem countInterval_running {l : FieldLine} {s : State} (h : (lineOf s l).state ≠ .stopped) :
    lineOf (countInterval l s) l = { lineOf s l with interval := (lineOf s l).interval - 1 } := by
  rw [countInterval, if_neg h, lineOf_modLine_self]

/-- R50: SWEEP_INTERVAL_EXPIRY of a line that is due starts its sweep. -/
theorem takeLines_started {l : FieldLine} {s : State} (hd : l ∈ s.tick.lines) (hl : (lineOf s l).list = [])
    (hr : (lineOf s l).state = .resting) (hi : (lineOf s l).interval ≤ 1) :
    SweepStarted l (lineOf s l).settings s.directory.stations (lineOf (takeLines l s) l) ∧
      (takeLines l s).directory = s.directory ∧ (takeLines l s).faults = s.faults := by
  obtain ⟨u, hu, hx⟩ := takeLines_due hd
  have hline : lineOf (countInterval l (tickTaken l u)) l = { lineOf s l with interval := (lineOf s l).interval - 1 } := by
    rw [countInterval_running (by rw [lineOf_tickTaken, hu.line, hr]; decide), lineOf_tickTaken, hu.line]
  have hc := countInterval_lineFrame l (tickTaken l u)
  have hf := (startSweep_boundary l (countInterval l (tickTaken l u))).toLineFrame
  rw [hx, takeLine_sweeps (hu.due.mpr hd) (by rw [hu.line]; exact hr) (by rw [hu.line]; exact hi)]
  refine ⟨?_, (hf.directory.trans hc.directory).trans hu.directory, (hf.attempt.faults.trans hc.attempt.faults).trans hu.faults⟩
  have hstart := startSweep_started (l := l) (s := countInterval l (tickTaken l u)) (by rw [hline]; exact hl)
  rw [hline, hc.directory] at hstart
  rw [← hu.directory]
  exact hstart

@[simp] theorem lineOf_clearIfDone (s : State) (l : FieldLine) : lineOf (clearIfDone s) l = lineOf s l := by
  rw [clearIfDone_eq]; rfl

@[simp] theorem lineOf_withReply (f : Frame) (r : Result) (data : List Byte) (a : AfterReply) (s : State) (l : FieldLine) :
    lineOf (withReply f r data a s) l = lineOf s l := rfl

/-- A presented request that acts on one line's controller. -/
theorem exec_taken_modLine {c : Instr} {code : Nat} {own : List Byte → State → State × Served} {s : State} {f : Frame} {l : FieldLine}
    {g : LineController → LineController} (h : Presents s code f) (ho : own f.body s = (modLine l g s, ok))
    (hx : exec c s = .next (serve code own s) := by rfl) (hk : (requestKind code).isSome = true := by decide) :
    ∃ t, exec c s = .next t ∧ t = withReply f .ok [] .nothing { s with lines := t.lines } ∧ lineOf t l = g (lineOf s l) ∧
      ∀ m, m ≠ l → lineOf t m = lineOf s m :=
  ⟨_, exec_taken h ho hx hk, rfl, (lineOf_withReply f _ _ _ _ l).trans (lineOf_modLine_self l g s),
    fun m hm => (lineOf_withReply f _ _ _ _ m).trans (lineOf_modLine_ne g s hm)⟩

/-! ## START-LINE (R54) -/

/-- R176: a byte past the four lines names none. -/
theorem lineAt_none {b : List Byte} (h : 4 ≤ u8 b 0) : lineAt b 0 = none := List.getElem?_eq_none h

theorem ownStartLine_stopped {b : List Byte} {s : State} {l : FieldLine} (hb : lineAt b 0 = some l) (h : (lineOf s l).state = .stopped) :
    ownStartLine b s = (startSweep l s, ok) := by
  simp [ownStartLine, hb, answer, firstRefusal, (lineStopped_iff s l).mpr h]

theorem ownStartLine_running {b : List Byte} {s : State} {l : FieldLine} (hb : lineAt b 0 = some l) (h : (lineOf s l).state ≠ .stopped) :
    ownStartLine b s = (s, refuse .state) := by
  simp [ownStartLine, hb, answer, firstRefusal, lineStopped, h]

theorem ownStartLine_noLine {b : List Byte} {s : State} (hb : lineAt b 0 = none) : ownStartLine b s = (s, refuse .badValue) := by
  simp only [ownStartLine, hb]

/-! ## STOP-LINE (R55) -/

theorem stopLine_stopped {l : FieldLine} {s : State} (h : (lineOf s l).state = .stopped) : stopLine l s = s := if_pos h

@[simp] theorem abandonAttempt_driven (c : LineController) : (abandonAttempt c).driven = c.driven := by
  unfold abandonAttempt; split <;> rfl

/-- R55: the controller of a line that is stopped. -/
def lineHalted (c : LineController) : LineController :=
  { awaitGuard (abandonAttempt c) with state := .stopped, visit := none, list := [] }

theorem stopLine_running {l : FieldLine} {s : State} (h : (lineOf s l).state ≠ .stopped) :
    stopLine l s = modLine l lineHalted (leaveWaitList l (returnSlot l s)) := if_neg h

/-- R55: a line that is stopped changes beside itself its reservation and its place in the wait list. -/
theorem lineHalted_lineFrame (l : FieldLine) (s : State) : LineFrame l s (modLine l lineHalted (leaveWaitList l (returnSlot l s))) :=
  ((returnSlot_lineFrame l s).trans (leaveWaitList_lineFrame l _)).trans (modLine_lineFrame l _ abandonAttempt_settings)

/-- R60: a line that returns its reservation holds none. -/
theorem not_mem_returnSlot (l : FieldLine) (s : State) : .reserved l ∉ (returnSlot l s).intake.slots := by
  intro h
  obtain ⟨v, -, hv⟩ := List.mem_map.mp h
  split at hv
  · cases hv
  · exact absurd hv ‹_›

theorem returnSlot_slot (l : FieldLine) {s : State} {i : Nat} {v : IntakeSlot} (h : s.intake.slots[i]? = some v) :
    (returnSlot l s).intake.slots[i]? = some (if v = .reserved l then .free else v) := by
  simp [returnSlot, h]

theorem not_mem_leaveWaitList (l : FieldLine) (s : State) : l ∉ (leaveWaitList l s).intake.waiting := by
  simp [leaveWaitList]

/-! ## SET-LINE and SET-SWEEP-MODE (R34, R52) -/

/-- R33, R34: a body that carries settings in their ranges is read. -/
theorem parseLine_eq {b : List Byte} {l : FieldLine} {v : LineSettings} (hl : decEnum fieldLines (u8 b 0) = some l)
    (h1 : decEnum bitRates (u8 b 1) = some v.bitRate) (h2 : u16 b 2 = v.replyTimeout) (h4 : u8 b 4 = v.guard) (h5 : u8 b 5 = v.retries)
    (h6 : u8 b 6 = v.silence) (h7 : u16 b 7 = v.interval) (h9 : decEnum sweepModes (u8 b 9) = some v.mode)
    (h10 : decEnum booleans (u8 b 10) = some v.autoStart)
    (hr : inRange 20 2000 v.replyTimeout && inRange 0 31 v.guard && inRange 0 7 v.retries && inRange 1 15 v.silence &&
      inRange 0 600 v.interval) : parseLine b = some (l, v) := by
  simp only [parseLine, lineAt, hl, h1, h9, h10, h2, h4, h5, h6, h7, if_pos hr]

theorem ownSetLine_parsed {b : List Byte} {l : FieldLine} {v : LineSettings} (hb : parseLine b = some (l, v)) (s : State) :
    ownSetLine b s = if (lineOf s l).state = .stopped then (modLine l (fun c => { c with settings := v }) s, ok) else (s, refuse .busy) := by
  by_cases h : (lineOf s l).state = .stopped <;> simp [ownSetLine, hb, answer, firstRefusal, lineStopped, h]

theorem ownSetSweepMode_taken {b : List Byte} {l : FieldLine} {m : SweepMode} (hl : decEnum fieldLines (u8 b 0) = some l)
    (hm : decEnum sweepModes (u8 b 1) = some m) (s : State) :
    ownSetSweepMode b s = (modLine l (fun c => { c with settings := { c.settings with mode := m } }) s, ok) := by
  simp only [ownSetSweepMode, lineAt, hl, hm]

/-! ## INTERROGATE (R53) -/

theorem ownInterrogate_badValue {b : List Byte} (h : u8 b 0 = 0 ∨ 120 < u8 b 0) (s : State) :
    ownInterrogate b s = (s, refuse .badValue) := by
  have hr : inRange 1 Config.maxStation (u8 b 0) = false := by
    rw [← Bool.not_eq_true, inRange_iff, Config.maxStation]; omega
  simp [ownInterrogate, hr]

theorem ownInterrogate_notFound {b : List Byte} {s : State} (h1 : 1 ≤ u8 b 0) (h2 : u8 b 0 ≤ 120) (hst : stationOf s (u8 b 0) = none) :
    ownInterrogate b s = (s, refuse .notFound) := by
  have hr : inRange 1 Config.maxStation (u8 b 0) = true := (inRange_iff _ _ _).mpr ⟨h1, h2⟩
  simp [ownInterrogate, hr, hst]

/-- R53: the answers for a defined outstation, in their order. -/
theorem ownInterrogate_defined {b : List Byte} {s : State} {st : Station} (h1 : 1 ≤ u8 b 0) (h2 : u8 b 0 ≤ 120)
    (hst : stationOf s (u8 b 0) = some st) : ownInterrogate b s =
      if (lineOf s st.settings.line).state = .stopped ∨ st.settings.enabled = false then (s, refuse .state)
      else if u8 b 0 ∈ (lineOf s st.settings.line).list then (s, ok)
      else if Config.maxInterrogation ≤ (lineOf s st.settings.line).list.length then (s, refuse .full)
      else (addInterrogation st.settings.line (u8 b 0) s, ok) := by
  have hr : inRange 1 Config.maxStation (u8 b 0) = true := (inRange_iff _ _ _).mpr ⟨h1, h2⟩
  simp [ownInterrogate, hr, hst, lineStopped]

/-- R53: the outstation joins the list as its newest entry. -/
def listed (l : FieldLine) (n : Nat) (s : State) : State := modLine l (fun c => { c with list := c.list ++ [n] }) s

theorem addInterrogation_running {l : FieldLine} {s : State} (h : (lineOf s l).state ≠ .resting) (n : Nat) :
    addInterrogation l n s = listed l n s := if_neg h

/-- R53, R49: on a RESTING line the oldest entry leaves the list and is visited. -/
theorem addInterrogation_resting {l : FieldLine} {s : State} (h : (lineOf s l).state = .resting) {n m : Nat} {rest : List Nat}
    (hl : (lineOf s l).list ++ [n] = m :: rest) :
    addInterrogation l n s = beginVisit l m .list .snapshot (modLine l (fun c => { c with list := rest }) s) := by
  have hlist : (lineOf (listed l n s) l).list = m :: rest := (congrArg LineController.list (lineOf_modLine_self l _ s)).trans hl
  have hx : addInterrogation l n s = visitBoundary l (listed l n s) := if_pos h
  rw [hx, visitBoundary, boundaryWith_listed hlist, listed, modLine_modLine]

theorem addInterrogation_lineFrame (l : FieldLine) (n : Nat) (s : State) : LineFrame l s (addInterrogation l n s) := by
  have hl : LineFrame l s (listed l n s) := modLine_lineFrame l s
  unfold addInterrogation
  dsimp only
  split
  · exact hl.trans (visitBoundary_boundary l _).toLineFrame
  · exact hl

end Sys2Proof.Machine

namespace Sys2Proof.Proofs

open Sys2Proof.Machine

/-- Settles O26: both causes start the sweep, whose first boundary finds the outstation of the lowest address or none. -/
theorem sweepStarts : Obligations.SweepStarts := by
  refine ⟨fun s l c hl hc => ?_, fun s l hl hb hm hlow => ?_, fun s f h => ⟨fun l hb => ⟨fun hr => ?_, fun hst => ?_⟩, fun hn => ?_⟩⟩
  · obtain ⟨rfl, hd, hr, hi⟩ | ⟨rfl, hst, f, h, hb⟩ := hc
    · obtain ⟨hs, hdir, hfaults⟩ := takeLines_started hd hl hr hi
      have hline := lineOf_clearIfDone (takeLines l s) l
      refine ⟨clearIfDone (takeLines l s), rfl, ?_, ?_, ?_, ?_⟩
      · rw [hline]; exact hs.settings
      · rw [clearIfDone_eq]; exact hdir
      · rw [clearIfDone_eq]; exact hfaults
      · rw [hline]; exact ⟨hs.unvisited, hs.visited⟩
    · have hs := startSweep_started hl
      have hf := (startSweep_boundary l s).toLineFrame
      refine ⟨_, exec_taken (data := []) h (ownStartLine_stopped hb hst), hs.settings, hf.directory, hf.attempt.faults, hs.unvisited, hs.visited⟩
  · have hx : visitBoundary l s = finishSingle l s := boundaryWith_single hl hb (nextStation_none_iff.mpr hlow) hm
    exact ⟨_, hx, rfl, fun _ hm => lineOf_modLine_ne _ s hm, lineOf_modLine_self l _ s⟩
  · exact exec_refused h (ownStartLine_running hb hr)
  · have hf := (startSweep_boundary l s).toLineFrame
    exact ⟨_, exec_taken h (ownStartLine_stopped hb hst), hf.frame, hf.others⟩
  · exact exec_refused h (ownStartLine_noLine (lineAt_none hn))

/-- Settles O27: beside the line itself, a stop touches its reservation and its place in the wait list. -/
theorem stopLineStops : Obligations.StopLineStops := by
  intro s f l h hb
  have ho : ownStopLine f.body s = (stopLine l s, ok) := by simp only [ownStopLine, lineAt, hb]
  refine ⟨stopLine l s, exec_taken h ho, stopLine_stopped, fun hr => ?_⟩
  have hf := lineHalted_lineFrame l s
  have hl : lineOf (modLine l lineHalted (leaveWaitList l (returnSlot l s))) l = lineHalted (lineOf s l) := lineOf_modLine_self l _ _
  rw [stopLine_running hr]
  refine ⟨hf.frame, ?_, ?_, ?_, hf.settings, ?_, ?_, ?_, hf.others, not_mem_leaveWaitList l _, not_mem_returnSlot l s, hf.order, rfl,
    fun i v hv => returnSlot_slot l hv⟩
  · rw [hl]; rfl
  · rw [hl]; rfl
  · rw [hl]; rfl
  · rw [hl]; rfl
  · rw [hl]; rfl
  · rw [hl]; exact abandonAttempt_driven _

/-- Settles O28: settings in range are taken by a STOPPED line, and a mode by any. -/
theorem lineSettingsAreReplaced : Obligations.LineSettingsAreReplaced := by
  refine ⟨fun s f l v h hl h1 h2 h4 h5 h6 h7 h9 h10 r1 r2 r3 r4 r5 r6 r7 => ?_, fun s f l m h hl hm => ?_⟩
  · have hp := parseLine_eq hl h1 h2 h4 h5 h6 h7 h9 h10 (by simp [*])
    by_cases hst : (lineOf s l).state = .stopped
    · obtain ⟨t, hx, hf, hline, ho⟩ := exec_taken_modLine (c := .setLine) h ((ownSetLine_parsed hp s).trans (if_pos hst))
      exact ⟨t, hx, fun hn => absurd hst hn, fun _ => ⟨hf, hline, ho⟩⟩
    · exact ⟨_, exec_refused h ((ownSetLine_parsed hp s).trans (if_neg hst)), fun _ => rfl, fun hs => absurd hs hst⟩
  · exact exec_taken_modLine h (ownSetSweepMode_taken hl hm s)

/-- Settles O29: the answers in their order, and the boundary that an addition is on a RESTING line. -/
theorem interrogateJoinsList : Obligations.InterrogateJoinsList := by
  refine ⟨fun s f st h h1 h2 hst => ?_, fun s f h => ⟨fun h1 h2 hn => ?_, fun hv => ?_⟩⟩
  · have ho := ownInterrogate_defined h1 h2 hst
    refine ⟨fun hc => exec_refused h (ho.trans (if_pos hc)), fun hen hr => ?_⟩
    rw [if_neg (by simp [hen, hr])] at ho
    refine ⟨fun hm => exec_taken h (ho.trans (if_pos hm)), fun hm hf => ?_, fun hm hf => ?_⟩
    · exact exec_refused h (ho.trans ((if_neg hm).trans (if_pos hf)))
    · have hframe := addInterrogation_lineFrame st.settings.line (u8 f.body 0) s
      refine ⟨_, exec_taken h (ho.trans ((if_neg hm).trans (if_neg (Nat.not_le.mpr hf)))), hframe.frame, hframe.others, fun hn => ?_,
        fun hrest n rest hl => ?_⟩
      · rw [addInterrogation_running hn]
        exact ⟨rfl, lineOf_modLine_self _ _ s⟩
      · rw [addInterrogation_resting hrest hl]
        have hbegun := startExchange_begun st.settings.line { station := n, origin := .list, kind := .snapshot }
          (modLine st.settings.line (fun c => { c with list := rest }) s)
        rw [lineOf_modLine_self] at hbegun
        exact ⟨hbegun.list, hbegun.sweepPos, hbegun.visit, startExchange_placed _ _ _⟩
  · exact exec_refused h (ownInterrogate_notFound h1 h2 hn)
  · exact exec_refused h (ownInterrogate_badValue hv s)

end Sys2Proof.Proofs
end

section
/-! PROOF. Outstation incidents (R126, R128): what the opening of an outstation's slot and the joining of its records come to, and the count of a
slot whose members are released. -/

namespace Sys2Proof.Machine

/-! ## Joining (R120) -/

/-- R120: a record that has joined slot n, with the slot's seen mark. -/
def Record.joined (n : Nat) (seen : Bool) (r : Record) : Record := { r with incident := some n, seen := r.seen || seen }

theorem Record.joined_joined (n : Nat) (seen : Bool) (r : Record) : (r.joined n seen).joined n seen = r.joined n seen := by
  simp [Record.joined]

theorem slotOf_joinSlot_self (n : Nat) (s : State) (key : Nat) :
    slotOf (joinSlot n s key) n = { slotOf s n with members := (slotOf s n).members + 1 } :=
  slotOf_modSlot_self n (fun v => { v with members := v.members + 1 }) s

theorem recordOf_joinSlot (n : Nat) (s : State) (k key : Nat) : recordOf (joinSlot n s k) key =
    if key = k then (recordOf s key).map (Record.joined n (slotOf s n).seen) else recordOf s key := by
  split
  · rename_i h
    subst h
    exact recordOf_modRecord_self key _ _
  · rename_i h
    exact recordOf_modRecord_ne _ _ h

theorem joinAll_cons (n k : Nat) (keys : List Nat) (s : State) : joinAll n (k :: keys) s = joinAll n keys (joinSlot n s k) := rfl

/-- R120: the slot counts every record that joins it. -/
theorem slotOf_joinAll_self (n : Nat) (keys : List Nat) (s : State) :
    slotOf (joinAll n keys s) n = { slotOf s n with members := (slotOf s n).members + keys.length } := by
  induction keys generalizing s with
  | nil => rfl
  | cons k keys ih => rw [joinAll_cons, ih, slotOf_joinSlot_self]; simp [Nat.add_assoc, Nat.add_comm 1]

theorem slotOf_joinAll_ne {n m : Nat} (keys : List Nat) (s : State) (h : m ≠ n) : slotOf (joinAll n keys s) m = slotOf s m := by
  induction keys generalizing s with
  | nil => rfl
  | cons k keys ih =>
    rw [joinAll_cons, ih]
    exact slotOf_modSlot_ne (fun v => { v with members := v.members + 1 }) s h

/-- R120: the records of the list join, and every other record is as it was. -/
theorem recordOf_joinAll (n : Nat) (keys : List Nat) (s : State) (key : Nat) : recordOf (joinAll n keys s) key =
    if key ∈ keys then (recordOf s key).map (Record.joined n (slotOf s n).seen) else recordOf s key := by
  induction keys generalizing s with
  | nil => simp [joinAll]
  | cons k keys ih =>
    have hseen : (slotOf (joinSlot n s k) n).seen = (slotOf s n).seen := by rw [slotOf_joinSlot_self]
    rw [joinAll_cons, ih, recordOf_joinSlot, hseen]
    by_cases hk : key = k
    · subst hk
      cases recordOf s key <;> simp [Record.joined_joined]
    · simp [hk]

/-! ## The opening of an outstation's slot (R126) -/

theorem stationCandidates_congr {s t : State} (hf : t.faults = s.faults) (ha : t.directory.assets = s.directory.assets) (n : Nat) :
    stationCandidates t n = stationCandidates s n := by
  simp only [stationCandidates, recordKeys, assetIs, assetOf, hf, ha]

/-- R126: the records that an outstation incident gathers. -/
abbrev Gathers (s : State) (n key : Nat) (r : Record) : Prop :=
  r.state ≠ .qualifying ∧ r.seen = false ∧ r.incident = none ∧ (assetOf s (keyAsset key)).map (fun x => x.settings.station) = some n

theorem mem_stationCandidates {s : State} (hw : Table.wf s.faults = true) {n key : Nat} {r : Record} (hr : recordOf s key = some r) :
    key ∈ stationCandidates s n ↔ Gathers s n key r := by
  rw [stationCandidates, mem_recordKeys hw, hr]
  cases h : assetOf s (keyAsset key) <;> simp [assetIs, Gathers, h, and_assoc]

/-- R126: a slot that opens, at a second. -/
def Slot.opening (t : Seconds) (v : Slot) : Slot := { v with state := .opened, seen := false, openedAt := some t, restoredAt := none }

/-- R126: the tables once the slot is open and has gathered its records. -/
def stationGathered (n : Nat) (s : State) : State :=
  joinAll (stationSlot n) (stationCandidates s n) (modSlot (stationSlot n) (Slot.opening (now s)) s)

theorem openStation_marks (n : Nat) (s : State) : MarkFrame (stationGathered n s) (openStation n s) := queueAction_frame _ _

/-- R126: the slot is open and has counted the records it gathers. -/
theorem openStation_slot (n : Nat) (s : State) : (slotOf (openStation n s) (stationSlot n)).unmarked =
    { (slotOf s (stationSlot n)).opening (now s) with
      members := (slotOf s (stationSlot n)).members + (stationCandidates s n).length, waiting := none } := by
  rw [(openStation_marks n s).slot, stationGathered, slotOf_joinAll_self, slotOf_modSlot_self]
  rfl

theorem openStation_slot_ne {n m : Nat} (s : State) (h : m ≠ stationSlot n) :
    (slotOf (openStation n s) m).unmarked = (slotOf s m).unmarked := by
  rw [(openStation_marks n s).slot, stationGathered, slotOf_joinAll_ne _ _ h, slotOf_modSlot_ne _ _ h]

/-- R126: the slot's records have joined it, and every other record is as it was. -/
theorem openStation_record {s : State} (hw : Table.wf s.faults = true) (n : Nat) {key : Nat} {r : Record} (hr : recordOf s key = some r) :
    ∃ q, recordOf (openStation n s) key = some q ∧
      q.unmarked = if Gathers s n key r then { r with incident := some (stationSlot n), waiting := none } else r.unmarked := by
  have hg : recordOf (stationGathered n s) key =
      some (if Gathers s n key r then r.joined (stationSlot n) false else r) := by
    have hopen : recordOf (modSlot (stationSlot n) (Slot.opening (now s)) s) key = some r := hr
    rw [stationGathered, recordOf_joinAll, slotOf_modSlot_self, hopen]
    by_cases hc : Gathers s n key r
    · rw [if_pos ((mem_stationCandidates hw hr).mpr hc), if_pos hc]; rfl
    · rw [if_neg (mt (mem_stationCandidates hw hr).mp hc), if_neg hc]
  obtain ⟨q, hq, hu⟩ := (openStation_marks n s).record_some hg
  refine ⟨q, hq, hu.trans ?_⟩
  by_cases hc : Gathers s n key r
  · rw [if_pos hc, if_pos hc]; simp [Record.joined, Record.unmarked]
  · rw [if_neg hc, if_neg hc]

/-! ## The members that a slot releases (R121, R128) -/

/-- R121: the slot counts every member that it releases. -/
theorem slotOf_release (n : Nat) (keys : List Nat) (s : State) :
    slotOf (keys.foldl (releaseMember n) s) n = { slotOf s n with members := (slotOf s n).members - keys.length } := by
  induction keys generalizing s with
  | nil => rfl
  | cons k keys ih =>
    have hk : slotOf (releaseMember n s k) n = { slotOf s n with members := (slotOf s n).members - 1 } :=
      slotOf_modSlot_self n (fun v => { v with members := v.members - 1 }) s
    rw [List.foldl_cons, ih, hk]
    simp [Nat.sub_sub, Nat.add_comm 1]

theorem restoreStation_members (n : Nat) (s : State) : (slotOf (restoreStation n s) (stationSlot n)).members =
    (slotOf s (stationSlot n)).members - (memberKeys s (stationSlot n)).length := by
  have hs : (slotOf (restoreStation n s) (stationSlot n)).members = (slotOf (releaseAll (stationSlot n) s) (stationSlot n)).members := by
    refine (congrArg Slot.members ((queueAction_frame _ _).slot (stationSlot n))).trans ?_
    rw [slotOf_modSlot_self]; rfl
  rw [hs, releaseAll, slotOf_release]

theorem memberKeys_congr {s t : State} (hf : t.faults = s.faults) (n : Nat) : memberKeys t n = memberKeys s n := by
  simp only [memberKeys, recordKeys, hf]

end Sys2Proof.Machine
end

section
/-! PROOF. The end of an exchange (R39, R43 to R47): the last attempt that fails and the silence that follows (R46), a good reply, the block that it
brings, and the outstation's return. -/

namespace Sys2Proof.Machine

/-! ## The change to SILENT (R46, R29) -/

/-- R29: the gate once outstation n has fallen silent. -/
def silencedGate (n : Nat) (g : Gate) : Gate :=
  match g.source with
  | .console => g
  | .point m _ => if m = n then { g with value := .unknown, settling := false, count := 0 } else g

theorem silencedGate_source {n p : Nat} {g : Gate} (h : g.source = .point n p) :
    silencedGate n g = { g with value := .unknown, settling := false, count := 0 } := by
  simp [silencedGate, h]

theorem silencedGate_other {n : Nat} {g : Gate} (h : ∀ p, g.source ≠ .point n p) : silencedGate n g = g := by
  unfold silencedGate
  split
  · rfl
  · rename_i m p hm
    refine if_neg fun hn => h p ?_
    rw [hm, hn]

/-- R46: the outstation is SILENT and its slot open, and the gate has lost it. -/
theorem becomeSilent_eq (n : Nat) (s : State) : becomeSilent n s =
    { openStation n (modStation n (fun st => { st with state := .silent }) s) with gate := silencedGate n s.gate } := by
  have hg : (openStation n (modStation n (fun st => { st with state := .silent }) s)).gate = s.gate := (openStation_frame n _).gate
  rw [becomeSilent, ← hg]
  generalize openStation n (modStation n (fun st => { st with state := .silent }) s) = u
  dsimp only
  split
  · rename_i hs
    rw [silencedGate_other (by simp [hs])]
  · rename_i m p hs
    split
    · rename_i hm
      rw [silencedGate_source (hm ▸ hs)]; rfl
    · rename_i hm
      rw [silencedGate_other (by simp [hs, hm])]

theorem stationOf_becomeSilent (n : Nat) (s : State) :
    stationOf (becomeSilent n s) n = (stationOf s n).map (fun st => { st with state := .silent }) := by
  rw [becomeSilent_eq, ← stationOf_modStation_self]
  exact (openStation_frame n _).stationOf n

theorem slotOf_becomeSilent (n m : Nat) (s : State) :
    slotOf (becomeSilent n s) m = slotOf (openStation n (modStation n (fun st => { st with state := .silent }) s)) m := by
  rw [becomeSilent_eq]; rfl

theorem recordOf_becomeSilent (n key : Nat) (s : State) :
    recordOf (becomeSilent n s) key = recordOf (openStation n (modStation n (fun st => { st with state := .silent }) s)) key := by
  rw [becomeSilent_eq]; rfl

theorem becomeSilent_gate (n : Nat) (s : State) : (becomeSilent n s).gate = silencedGate n s.gate := by rw [becomeSilent_eq]

/-- R46: a visit that fails past the threshold silences its outstation. -/
theorem visitFailed_silences {s : State} {n : Nat} {st : Station} (hst : stationOf s n = some st) (hs : st.state ≠ .silent)
    (hf : st.failures < 15) {l : FieldLine} (ht : (lineOf s l).settings.silence ≤ st.failures + 1) :
    visitFailed l n s = becomeSilent n (modStation n (fun x => { x with failures := min 15 (x.failures + 1) }) s) := by
  have hmin : min 15 (st.failures + 1) = st.failures + 1 := Nat.min_eq_right hf
  simp only [visitFailed, hst, lineOf_modStation, hmin]
  exact if_pos ⟨ht, hs⟩

/-- R45: the state once the last attempt of an exchange has failed, and the line has returned its slot. -/
def exchangeFailed (l : FieldLine) (n : Nat) (cause : FailureCause) (s : State) : State :=
  returnSlot l (modLine l (fun c => awaitGuard (breakQuiet c)) (modStation n (fun x => { x with lastCause := some cause }) s))

theorem exchangeFailed_lineFrame (l : FieldLine) (n : Nat) (cause : FailureCause) (s : State) :
    LineFrame l (modStation n (fun x => { x with lastCause := some cause }) s) (exchangeFailed l n cause s) :=
  (modLine_lineFrame l _).trans (returnSlot_lineFrame l _)

/-- R45, R46: the last attempt of an undecided visit fails the visit, which ends. -/
theorem failAttempt_exhausted {s : State} {l : FieldLine} {v : Visit} (hv : (lineOf s l).visit = some v)
    (ha : (lineOf s l).settings.retries < v.attempt) (hd : v.decided = false) (cause : FailureCause) :
    failAttempt l cause s = endVisit l (visitFailed l v.station (exchangeFailed l v.station cause s)) := by
  have hlt : ¬ v.attempt < (lineOf s l).settings.retries + 1 := by omega
  simp only [failAttempt, hv, lineOf_modLine_self, lineOf_modStation, hd]
  exact if_neg hlt

/-! ## A good reply (R39, R43, R44) -/

/-- R39: a reply that no check fails is contact with the outstation. -/
theorem isContact_of_judged {v : Visit} {a : Nat} {chars : List Byte} (h : ∀ cause, judgeReply v a chars ≠ .failed cause) :
    isContact a chars = true := by
  cases hc : replyCrcGood chars with
  | false => exact absurd (by simp [judgeReply, hc]) (h .check)
  | true =>
    by_cases ha : u8 chars 1 = a
    · simp [isContact, hc, ha]
    · exact absurd (by simp [judgeReply, hc, ha]) (h .address)

/-- R39: the outstation has been contacted. -/
def contacted (n : Nat) (s : State) : State := modStation n (fun st => { st with lastContact := some (now s) }) s

/-- R39: a complete reply that no check fails is a good reply. -/
theorem Awaits.completeReply_good {s : State} {l : FieldLine} {chars : List Byte} {v : Visit} {st : Station} (h : Awaits s l chars v st)
    (hh : replyHeld chars = true) (hj : ∀ cause, judgeReply v st.settings.address chars ≠ .failed cause) :
    completeReply l s = goodReply l v st (judgeReply v st.settings.address chars) (contacted v.station s) := by
  simp only [completeReply, h.awaited, h.visit, hh, h.station, isContact_of_judged hj, if_true]
  cases hx : judgeReply v st.settings.address chars with
  | failed cause => exact absurd hx (hj cause)
  | report | snapshot | nothing => rfl

/-- R44: the state at which a good reply is acted on: the visit has succeeded, if it was undecided. -/
def exchangeSucceeded (l : FieldLine) (v : Visit) (s : State) : State :=
  if v.decided then modLine l breakQuiet s else visitSucceeded v.station (modLine l breakQuiet s)

section
variable {l : FieldLine} {v : Visit} {st : Station} {s : State}

/-- R43: a REPORT with the other toggle is accepted. -/
theorem goodReply_report {es : List Entry} {toggle more : Bool} (h : toggle ≠ st.toggle) :
    goodReply l v st (.report es toggle more) s = acceptBlock l v false es toggle more (exchangeSucceeded l v s) := if_neg h

/-- R43: a duplicate REPORT is not. -/
theorem goodReply_duplicate {es : List Entry} {more : Bool} :
    goodReply l v st (.report es st.toggle more) s = endVisit l (returnSlot l (exchangeSucceeded l v s)) := if_pos rfl

/-- R43: every SNAPSHOT block is accepted. -/
theorem goodReply_snapshot {es : List Entry} {toggle more : Bool} :
    goodReply l v st (.snapshot es toggle more) s = acceptBlock l v true es toggle more (exchangeSucceeded l v s) := rfl

theorem goodReply_nothing : goodReply l v st .nothing s = endVisit l (returnSlot l (exchangeSucceeded l v s)) := rfl

/-! ## A visit that succeeds (R44) -/

/-- R44: an outstation whose visit has succeeded. -/
def Station.succeeded (st : Station) : Station := { st with failures := 0, state := .online }

theorem visitSucceeded_online {n : Nat} (hst : stationOf s n = some st) (hs : st.state ≠ .silent) :
    visitSucceeded n s = modStation n Station.succeeded s := by
  simp only [visitSucceeded, hst]
  exact if_neg hs

theorem visitSucceeded_returns {n : Nat} (hst : stationOf s n = some st) (hs : st.state = .silent) :
    visitSucceeded n s = restoreStation n (modStation n Station.succeeded s) := by
  simp only [visitSucceeded, hst]
  exact if_pos hs

/-- R44: a good reply of an outstation that was not SILENT leaves the intake and the tables, and decides an undecided visit. -/
theorem exchangeSucceeded_online (hst : stationOf s v.station = some st) (hs : st.state ≠ .silent) :
    AttemptFrame s (exchangeSucceeded l v s) ∧ (exchangeSucceeded l v s).intake = s.intake ∧
      stationOf (exchangeSucceeded l v s) v.station = some (if v.decided then st else st.succeeded) := by
  unfold exchangeSucceeded
  cases v.decided with
  | true => exact ⟨modLine_attempt l _ s, rfl, hst⟩
  | false =>
    simp only [Bool.false_eq_true, if_false]
    rw [visitSucceeded_online (s := modLine l breakQuiet s) hst hs]
    refine ⟨(modLine_attempt l _ s).trans (modStation_attempt _ _ _), rfl, ?_⟩
    rw [stationOf_modStation_self, stationOf_modLine, hst]; rfl

/-- R44, R128: one that was SILENT returns. -/
theorem exchangeSucceeded_returns (hst : stationOf s v.station = some st) (hs : st.state = .silent) (hd : v.decided = false) :
    exchangeSucceeded l v s = restoreStation v.station (modStation v.station Station.succeeded (modLine l breakQuiet s)) := by
  rw [exchangeSucceeded, hd]
  exact visitSucceeded_returns (s := modLine l breakQuiet s) hst hs

/-! ## A block that is accepted (R43, R47, R61) -/

/-- R61: a block fills the slot that its line had reserved, at the end of the decode order. -/
theorem fillSlot_reserved {i : Nat} (h : reservedIndex s.intake.slots l = some i) (b : Block) :
    fillSlot l b s = modIntake (fun k => { k with slots := k.slots.set i (.filled b), order := k.order ++ [i] }) s := by
  simp only [fillSlot, h]

theorem fillSlot_frame (l : FieldLine) (b : Block) (s : State) : fillSlot l b s = { s with intake := (fillSlot l b s).intake } := by
  unfold fillSlot
  split <;> rfl

/-- R43: the state once a block's toggle is the last accepted one and its slot is filled. -/
def blockAccepted (l : FieldLine) (n : Nat) (snapshot : Bool) (es : List Entry) (toggle : Bool) (s : State) : State :=
  fillSlot l { line := l, station := n, snapshot, entries := es, arrival := now s } (modStation n (fun st => { st with toggle := toggle }) s)

theorem blockAccepted_attempt (l : FieldLine) (n : Nat) (snapshot : Bool) (es : List Entry) (toggle : Bool) (s : State) :
    AttemptFrame s (blockAccepted l n snapshot es toggle s) := ⟨by rw [blockAccepted, fillSlot_frame]; rfl⟩

theorem stationOf_blockAccepted (l : FieldLine) (n : Nat) (snapshot : Bool) (es : List Entry) (toggle : Bool) (s : State) :
    stationOf (blockAccepted l n snapshot es toggle s) n = (stationOf s n).map (fun st => { st with toggle := toggle }) := by
  rw [blockAccepted, fillSlot_frame]
  exact stationOf_modStation_self n _ s

/-- R47: the visit of an accepted block, in a continuation. -/
def Visit.continued (v : Visit) (snapshot : Bool) : Visit :=
  { v with decided := true, accepted := v.accepted + 1, snapshots := v.snapshots + snapshot.toNat, kind := if snapshot then .snapshot else .poll }

/-- R47: with MORE and fewer than 4 blocks accepted a continuation begins. -/
theorem acceptBlock_continues {snapshot more : Bool} {es : List Entry} {toggle : Bool} (h : more = true ∧ v.accepted + 1 < 4) :
    acceptBlock l v snapshot es toggle more s =
      startExchange l (v.continued snapshot) (modLine l awaitGuard (blockAccepted l v.station snapshot es toggle s)) :=
  if_pos (Bool.and_eq_true_iff.mpr ⟨h.1, decide_eq_true h.2⟩)

/-- R47: else the visit ends. -/
theorem acceptBlock_ends {snapshot more : Bool} {es : List Entry} {toggle : Bool} (h : ¬ (more = true ∧ v.accepted + 1 < 4)) :
    acceptBlock l v snapshot es toggle more s = endVisit l (blockAccepted l v.station snapshot es toggle s) :=
  if_neg fun hc => h ((Bool.and_eq_true_iff.mp hc).imp id of_decide_eq_true)

/-- R47: going on or ending, the line asks for a slot or rests; what the block brought stays. -/
theorem acceptBlock_lineFrame (snapshot more : Bool) (es : List Entry) (toggle : Bool) :
    LineFrame l (blockAccepted l v.station snapshot es toggle s) (acceptBlock l v snapshot es toggle more s) := by
  by_cases h : more = true ∧ v.accepted + 1 < 4
  · rw [acceptBlock_continues h]
    exact (modLine_lineFrame l _).trans (startExchange_lineFrame l _ _)
  · rw [acceptBlock_ends h]
    exact (endVisit_boundary l _).toLineFrame

/-- R43: a reply that brings no new block ends the visit, and the line returns its slot. -/
theorem endVisit_unfilled (l : FieldLine) (s : State) : BoundaryFrame l s (endVisit l (returnSlot l s)) :=
  (returnSlot_lineFrame l s).boundary (endVisit_boundary l _)

/-! ## Beyond the decision of the visit -/

/-- R43, R47: what follows a visit's success leaves the tables, and of its outstation the state and the failure count. -/
theorem goodReply_attempt {j : Judged} :
    AttemptFrame (exchangeSucceeded l v s) (goodReply l v st j s) ∧
      (stationOf (goodReply l v st j s) v.station).map (fun x => (x.state, x.failures)) =
        (stationOf (exchangeSucceeded l v s) v.station).map (fun x => (x.state, x.failures)) := by
  have hend := (endVisit_unfilled l (exchangeSucceeded l v s)).toLineFrame
  have hblock (snapshot more : Bool) (es : List Entry) (toggle : Bool) :
      AttemptFrame (exchangeSucceeded l v s) (acceptBlock l v snapshot es toggle more (exchangeSucceeded l v s)) ∧
        (stationOf (acceptBlock l v snapshot es toggle more (exchangeSucceeded l v s)) v.station).map (fun x => (x.state, x.failures)) =
          (stationOf (exchangeSucceeded l v s) v.station).map (fun x => (x.state, x.failures)) := by
    have hf := acceptBlock_lineFrame (l := l) (v := v) (s := exchangeSucceeded l v s) snapshot more es toggle
    refine ⟨(blockAccepted_attempt l _ _ _ _ _).trans hf.attempt, ?_⟩
    rw [hf.stationOf, stationOf_blockAccepted, Option.map_map]
    rfl
  cases j with
  | failed | nothing => exact ⟨hend.attempt, by rw [← hend.stationOf]; rfl⟩
  | snapshot es toggle more => exact hblock true more es toggle
  | report es toggle more =>
    by_cases ht : toggle = st.toggle
    · subst ht
      rw [goodReply_duplicate]
      exact ⟨hend.attempt, by rw [hend.stationOf]⟩
    · rw [goodReply_report ht]
      exact hblock false more es toggle

end

end Sys2Proof.Machine

namespace Sys2Proof.Proofs

open Sys2Proof.Machine

/-- Settles O24: the last attempt fails the visit, and the failed visit silences the outstation. -/
theorem silenceOpensIncident : Obligations.SilenceOpensIncident := by
  intro s l v st h hw ha hd hs hf ht
  let failed := exchangeFailed l v.station .timeout s
  let counted := modStation v.station (fun x => { x with failures := min 15 (x.failures + 1) }) failed
  let silenced := modStation v.station (fun x => { x with state := .silent }) counted
  have hfail := exchangeFailed_lineFrame l v.station .timeout s
  have hst : stationOf failed v.station = some { st with lastCause := some .timeout } := by
    rw [hfail.stationOf, stationOf_modStation_self, h.station]; rfl
  have hx : exec (.replyTimeout l) s = .next (endVisit l (becomeSilent v.station counted)) := by
    rw [exec_settled (act := timeoutReply l) h.settled, h.timeoutReply, failAttempt_exhausted h.visit ha hd,
      visitFailed_silences hst hs hf (by rw [hfail.settings]; exact ht)]
  have hend := (endVisit_boundary l (becomeSilent v.station counted)).toLineFrame
  have hatt : AttemptFrame s silenced :=
    (((modStation_attempt _ _ s).trans hfail.attempt).trans (modStation_attempt _ _ _)).trans (modStation_attempt _ _ _)
  have hgate : counted.gate = s.gate := hatt.gate
  refine ⟨_, hx, ?_, ?_, fun n hn => ?_, fun key r hr => ?_, fun p hp => ?_, fun hp => ?_⟩
  · rw [hend.stationOf, stationOf_becomeSilent, stationOf_modStation_self, hst]
    simp [Nat.min_eq_right (Nat.succ_le_of_lt hf)]
  · rw [hend.attempt.slotOf, slotOf_becomeSilent, openStation_slot, hatt.slotOf, hatt.now, stationCandidates_congr hatt.faults hatt.assets]
    rfl
  · rw [hend.attempt.slotOf, slotOf_becomeSilent, openStation_slot_ne silenced hn, hatt.slotOf]
  · obtain ⟨q, hq, hu⟩ := openStation_record (s := silenced) (by rw [hatt.faults]; exact hw) v.station ((hatt.recordOf key).trans hr)
    refine ⟨q, by rw [hend.attempt.recordOf, recordOf_becomeSilent]; exact hq, ?_⟩
    simpa only [Gathers, hatt.assetOf] using hu
  · rw [hend.attempt.gate, becomeSilent_gate, hgate, silencedGate_source hp]
    exact ⟨rfl, rfl, rfl⟩
  · rw [hend.attempt.gate, becomeSilent_gate, hgate, silencedGate_other hp]

end Sys2Proof.Proofs
end

section
/-! PROOF. A good reply is acted on (R43, R44, R47, R61, R128): the block that is accepted, the reply that brings none, and the return of a SILENT
outstation. -/

namespace Sys2Proof.Machine

section
variable {s : State} {l : FieldLine} {chars : List Byte} {v : Visit} {st : Station}

/-- R39, R44: a good reply of an outstation that was not SILENT, up to what it brings: the tables and the intake are as they were. -/
theorem contactSucceeded (hst : stationOf s v.station = some st) (hs : st.state ≠ .silent) :
    AttemptFrame s (exchangeSucceeded l v (contacted v.station s)) ∧ (exchangeSucceeded l v (contacted v.station s)).intake = s.intake ∧
      stationOf (exchangeSucceeded l v (contacted v.station s)) v.station =
        some (if v.decided then { st with lastContact := some (now s) }
          else { st with state := .online, failures := 0, lastContact := some (now s) }) := by
  have hc : stationOf (contacted v.station s) v.station = some { st with lastContact := some (now s) } := by
    rw [contacted, stationOf_modStation_self, hst]; rfl
  obtain ⟨hf, hi, hon⟩ := exchangeSucceeded_online (l := l) hc hs
  exact ⟨(modStation_attempt _ _ s).trans hf, hi, hon⟩

/-- R43, R61: a block that is accepted stands in the slot that its line had reserved, at the end of the decode order. -/
theorem blockAccepted_fills {i : Nat} (h : reservedIndex s.intake.slots l = some i) (n : Nat) (snapshot : Bool) (es : List Entry)
    (toggle : Bool) :
    (blockAccepted l n snapshot es toggle s).intake.slots[i]? =
        some (.filled { line := l, station := n, snapshot, entries := es, arrival := now s }) ∧
      (blockAccepted l n snapshot es toggle s).intake.order = s.intake.order ++ [i] := by
  rw [blockAccepted, fillSlot_reserved (s := modStation n _ s) h]
  exact ⟨List.getElem?_set_self (List.getElem?_eq_some_iff.mp (reservedIndex_reserved h)).1, rfl⟩

/-- R43, R47, R61: a block that is accepted from an outstation that was not SILENT. -/
theorem acceptBlock_contact (hst : stationOf s v.station = some st) (hs : st.state ≠ .silent) {i : Nat}
    (hi : reservedIndex s.intake.slots l = some i) (snapshot more : Bool) (es : List Entry) (toggle : Bool) {t : State}
    (ht : t = acceptBlock l v snapshot es toggle more (exchangeSucceeded l v (contacted v.station s))) :
    AttemptFrame s t ∧
      stationOf t v.station = some (if v.decided then { st with toggle := toggle, lastContact := some (now s) }
        else { st with state := .online, failures := 0, toggle := toggle, lastContact := some (now s) }) ∧
      t.intake.slots[i]? = some (.filled { line := l, station := v.station, snapshot, entries := es, arrival := now s }) ∧
      t.intake.order = s.intake.order ++ [i] := by
  obtain ⟨hf, hin, hon⟩ := contactSucceeded (l := l) hst hs
  have hline := acceptBlock_lineFrame (l := l) (v := v) (s := exchangeSucceeded l v (contacted v.station s)) snapshot more es toggle
  obtain ⟨hslot, horder⟩ := blockAccepted_fills (s := exchangeSucceeded l v (contacted v.station s)) (by rw [hin]; exact hi)
    v.station snapshot es toggle
  rw [← ht] at hline
  refine ⟨(hf.trans (blockAccepted_attempt _ _ _ _ _ _)).trans hline.attempt, ?_, ?_, ?_⟩
  · rw [hline.stationOf, stationOf_blockAccepted, hon]
    cases v.decided <;> rfl
  · rw [hline.filled, hslot, hf.now]
  · rw [hline.order, horder, hin]

/-- R47: with MORE and fewer than 4 blocks accepted, the line's continuation waits out the guard with a slot or waits for one. -/
theorem acceptBlock_continuation {snapshot more : Bool} {es : List Entry} {toggle : Bool} (h : more = true ∧ v.accepted + 1 < 4) :
    (lineOf (acceptBlock l v snapshot es toggle more s) l).visit = some { v.continued snapshot with attempt := 1 } ∧
      (lineOf (acceptBlock l v snapshot es toggle more s) l).exchange = .guardWait ∧
      ((lineOf (acceptBlock l v snapshot es toggle more s) l).state = .polling ∨
        (lineOf (acceptBlock l v snapshot es toggle more s) l).state = .awaitSlot) := by
  rw [acceptBlock_continues h]
  have hb := startExchange_begun l (v.continued snapshot) (modLine l awaitGuard (blockAccepted l v.station snapshot es toggle s))
  exact ⟨hb.visit, hb.exchange (by rw [lineOf_modLine_self]; rfl), hb.state⟩

end

end Sys2Proof.Machine

namespace Sys2Proof.Proofs

open Sys2Proof.Machine

/-- Settles O25: a good reply is contact and the visit's success; then its block is accepted, or it brings none. -/
theorem reportIsAcceptedOnce : Obligations.ReportIsAcceptedOnce := by
  refine ⟨fun s l chars v st es snap toggle more i h hh hs hj hi => ?_, fun s l chars v st h hh hs hj => ?_,
    fun s l chars v st h hh hd hs hj hw => ?_⟩
  · have hx : exec (.replyComplete l) s =
        .next (acceptBlock l v snap es toggle more (exchangeSucceeded l v (contacted v.station s))) := by
      obtain ⟨rfl, rfl, hj⟩ | ⟨rfl, hj⟩ := hj
      · rw [exec_settled (act := completeReply l) h.settled, h.completeReply_good hh (by simp [hj]), hj, goodReply_report (by simp)]
      · rw [exec_settled (act := completeReply l) h.settled, h.completeReply_good hh (by simp [hj]), hj, goodReply_snapshot]
    obtain ⟨hf, hst, hslot, horder⟩ := acceptBlock_contact h.station hs hi snap more es toggle rfl
    refine ⟨_, hx, hst, hslot, horder, hf.faults, hf.link, hf.dispatch, ?_⟩
    split
    · rename_i hm
      exact acceptBlock_continuation hm
    · rename_i hm
      rw [acceptBlock_ends hm]
      exact (endVisit_boundary l _).fresh
  · have hx : exec (.replyComplete l) s = .next (endVisit l (returnSlot l (exchangeSucceeded l v (contacted v.station s)))) := by
      obtain hj | ⟨es, more, hj⟩ := hj
      · rw [exec_settled (act := completeReply l) h.settled, h.completeReply_good hh (by simp [hj]), hj, goodReply_nothing]
      · rw [exec_settled (act := completeReply l) h.settled, h.completeReply_good hh (by simp [hj]), hj, goodReply_duplicate]
    obtain ⟨hf, hin, hst⟩ := contactSucceeded (l := l) h.station hs
    have hend := endVisit_unfilled l (exchangeSucceeded l v (contacted v.station s))
    have hall := hf.trans hend.toLineFrame.attempt
    refine ⟨_, hx, ?_, fun i b => ?_, ?_, hall.faults, hall.link, hall.dispatch, hend.fresh⟩
    · rw [hend.order, hin]
    · rw [hend.filled, hin]
    · rw [hend.toLineFrame.stationOf, hst]
  · let known := modStation v.station Station.succeeded (modLine l breakQuiet (contacted v.station s))
    have hknown : AttemptFrame s known := ((modStation_attempt _ _ s).trans (modLine_attempt l _ _)).trans (modStation_attempt _ _ _)
    have hst : stationOf (contacted v.station s) v.station = some { st with lastContact := some (now s) } := by
      rw [contacted, stationOf_modStation_self, h.station]; rfl
    obtain ⟨hf, hstation⟩ :=
      goodReply_attempt (l := l) (v := v) (st := st) (s := contacted v.station s) (j := judgeReply v st.settings.address chars)
    rw [exchangeSucceeded_returns hst hs hd] at hf hstation
    obtain ⟨hstate, hat⟩ := restoreStation_slot v.station known
    have hrecords : Table.wf known.faults = true := by rw [hknown.faults]; exact hw
    refine ⟨_, (exec_settled (act := completeReply l) h.settled).trans (congrArg _ (h.completeReply_good hh hj)), ?_, ?_, ?_, ?_,
      fun key r hr => ?_⟩
    · rw [hstation, (restoreStation_frame v.station known).stationOf, stationOf_modStation_self, stationOf_modLine, hst]
      rfl
    · rw [hf.slotOf]; exact hstate
    · rw [hf.slotOf, ← hknown.now]; exact hat
    · rw [hf.slotOf, ← hknown.slotOf, ← memberKeys_congr hknown.faults]
      exact restoreStation_members v.station known
    · obtain ⟨q, hq, hu⟩ := restoreStation_record hrecords v.station ((hknown.recordOf key).trans hr)
      refine ⟨q, by rw [hf.recordOf]; exact hq, hu.trans ?_⟩
      split <;> rfl

end Sys2Proof.Proofs
end

section
/-! PROOF. The grants and the Decoder (R60, R62, R63, R67, R69): what a grant makes of the intake and of its line, how the Decoder takes a block,
and how far it moves at each entry. -/

namespace Sys2Proof.Machine

/-! ## A grant (R60) -/

theorem freeIndex_of_mem {slots : List IntakeSlot} (h : .free ∈ slots) : ∃ i, freeIndex slots = some i :=
  Option.isSome_iff_exists.mp (List.findIdx?_isSome.trans (List.any_eq_true.mpr ⟨.free, h, rfl⟩))

/-- R60: the head of the wait list gets the slot and enters POLLING. -/
theorem grantHead_grants {s : State} {l : FieldLine} {rest : List FieldLine} {i : Nat} (hw : s.intake.waiting = l :: rest)
    (hi : freeIndex s.intake.slots = some i) : grantHead s = enterPolling l
      { s with intake := { s.intake with slots := s.intake.slots.set i (.reserved l), waiting := rest } } := by
  rw [grantHead, hw, hi]
  rfl

/-! ## The Decoder takes a block (R62) -/

/-- R62: where no tick and no grant is due, what is due before a command is the taking of the block alone. -/
theorem settle_takes {s : State} {i : Nat} {rest : List Nat} (ht : s.tick = {}) (hg : grantDue s.intake = false)
    (hd : s.intake.decoder = .idle) (ho : s.intake.order = i :: rest) :
    settle s = { s with intake := { s.intake with order := rest, decoder := .decoding i 0 } } := by
  have hs : ¬ settled s = true := by simp [settled_iff, takeDue, hd, ho]
  have hgrants : grantAll s = s := grants_stable hg _
  rw [settle, if_neg hs, if_pos ht, hgrants, takeBlock_takes hd ho]

/-! ## The Decoder applies an entry (R62, R63) -/

/-- R62: the intake once the Decoder has moved past the entry n of the block b in slot i. -/
def Intake.pastEntry (i n : Nat) (b : Block) (k : Intake) : Intake :=
  if n + 1 < b.entries.length then { k with decoder := .decoding i (n + 1) }
  else { k with slots := k.slots.set i .free, decoder := .idle }

/-- The Decoder of s stands at the entry e, which is the entry n of the block b in slot i, and nothing is due before it. -/
structure Decodes (s : State) (i n : Nat) (b : Block) (e : Entry) : Prop where
  settled : settled s = true
  decoder : s.intake.decoder = .decoding i n
  slot : s.intake.slots[i]? = some (.filled b)
  entry : b.entries[n]? = some e

/-- R62, R63: the Decoder moves past the entry, whatever the entry does, and the entry itself changes nothing of the intake. -/
theorem Decodes.applyEntry {s : State} {i n : Nat} {b : Block} {e : Entry} (h : Decodes s i n b e) :
    exec .applyEntry s = .next { applyOne b e s with intake := s.intake.pastEntry i n b } := by
  have hstep : decodeStep s = { applyOne b e s with intake := s.intake.pastEntry i n b } := by
    rw [← (applyOne_frame b e s).intake, Intake.pastEntry]
    simp only [decodeStep, h.decoder, h.slot, h.entry]
    split <;> rfl
  rw [exec_settled (act := decodeStep) h.settled, hstep]

/-- The state that an entry's own effect leaves, got back from the one in which the Decoder has moved on. -/
theorem applyOne_of_intake (b : Block) (e : Entry) (s : State) (k : Intake) :
    { { applyOne b e s with intake := k } with intake := s.intake } = applyOne b e s := by
  rw [← (applyOne_frame b e s).intake]

/-- R63: an entry of a SILENT or undefined outstation changes nothing. -/
theorem applyOne_unheard {s : State} {b : Block} (h : ∀ st, stationOf s b.station = some st → st.state = .silent) (e : Entry) :
    applyOne b e s = s := by
  unfold applyOne
  split
  · rfl
  · rename_i st hst
    rw [if_pos (h st hst)]

end Sys2Proof.Machine

namespace Sys2Proof.Proofs

open Sys2Proof.Machine

/-- Settles O30: the grant takes the lowest FREE slot for the line that has waited longest. -/
theorem grantServesHeadOfWaitList : Obligations.GrantServesHeadOfWaitList := by
  intro s l rest hw hf
  obtain ⟨i, hi⟩ := freeIndex_of_mem hf
  refine ⟨_, i, rfl, freeIndex_free hi, ?_⟩
  rw [grantHead_grants hw hi]
  exact ⟨rfl, lineOf_modLine_self l _ _, fun m hm => lineOf_modLine_ne _ _ hm⟩

/-- Settles O31: the taking of a block is what settling comes to; an entry leaves all but the tables as it is, and the Decoder moves past it. -/
theorem decoderTakesBlocksInOrder : Obligations.DecoderTakesBlocksInOrder := by
  refine ⟨fun s i rest ht hg hd ho => ?_, fun s i n b hs hd hb hn => ?_⟩
  · have hsettle := settle_takes ht hg hd ho
    exact ⟨congrArg Host.Outcome.next hsettle, hsettle⟩
  · have h : Decodes s i n b b.entries[n] := ⟨hs, hd, hb, List.getElem?_eq_getElem hn⟩
    have hf := applyOne_frame b b.entries[n] s
    exact ⟨_, h.applyEntry, rfl, hf.lines, hf.timebase, hf.store, hf.tick, hf.pending, fun hsil => by rw [applyOne_unheard hsil]⟩

end Sys2Proof.Proofs
end

section
/-! PROOF. From an entry to the records (R65, R68, R71 to R86, R92): the asset that a mapped entry is handed to, what a MAIN reading comes to for
each kind of asset, and the record that the loss of a supply creates. -/

namespace Sys2Proof.Machine

/-! ## A mapped entry (R65) -/

/-- R65: an entry whose form is that of its point's role, and which does not set the gate, is handed to its asset and does nothing else. -/
theorem applyOne_mapped {s : State} {b : Block} {e : Entry} {st : Station} {a : Nat} {role : Role} (hst : stationOf s b.station = some st)
    (hs : st.state ≠ .silent) (hg : s.gate.source ≠ .point b.station e.point) (hm : Table.find st.pointMap e.point = some (a, role))
    (hf : formMatches role e.data = true) : applyOne b e s = classify a role (decodedData b.snapshot e.data) s := by
  have hreach : reachesGate s b.station e = false := by simp [← Bool.not_eq_true, reachesGate_iff, hg]
  have htarget : entryTarget st e = some (a, role) := by simp only [entryTarget, hm, if_pos hf]
  simp only [applyOne, hst, if_neg hs, htarget, routeGate_unreached hreach]

/-! ## Assets -/

theorem Table.modify_modify {α : Type} (t : Table α) (n : Nat) (f g : α → α) :
    Table.modify (Table.modify t n f) n g = Table.modify t n (fun v => g (f v)) := by
  simp only [Table.modify, List.map_map]
  refine List.map_congr_left fun e _ => ?_
  by_cases h : e.1 = n <;> simp [h]

theorem modAsset_modAsset (a : Nat) (f g : Asset → Asset) (s : State) :
    modAsset a g (modAsset a f s) = modAsset a (fun x => g (f x)) s := by
  simp only [modAsset, Table.modify_modify]

/-! ## A judged reading (R76 to R82) -/

/-- R76, R78, R80: the reference and the band that a judgement leaves in an asset. -/
def Asset.judged (j : Judgement) (x : Asset) : Asset := { x with reference := j.reference, lastBand := some j.band }

/-- R81: the estimate of a lamp circuit, in its asset. -/
def Asset.estimated (lamps : Nat) (x : Asset) : Asset := { x with lampsOut := some lamps }

section
variable {x : Asset} (a : Nat) (p : Profile) (v : Nat) (s : State)

/-- R79: a judged reading of any kind but a lamp circuit makes the observations of its band. -/
theorem judgedReading_unlit (h : x.settings.kind ≠ .lampCircuit) : judgedReading a x p v s =
    observeAll a (bandObservations x.settings.kind (judge p x.reference v).band) (modAsset a (Asset.judged (judge p x.reference v)) s) := by
  simp only [judgedReading, if_neg h]
  rfl

/-- R79, R81, R82: a judged reading of a lamp circuit makes an estimate too, which its asset takes before the observations and its records of
missing lamps after them. -/
theorem judgedReading_lamps (h : x.settings.kind = .lampCircuit) {j : Judgement} (hj : j = judge p x.reference v) {lamps : Nat}
    (hl : lamps = lampsEstimate j.band j.deviation x.settings.lampCount) : judgedReading a x p v s =
    writeEstimate (recordKey a .partialOut) lamps (writeEstimate (recordKey a .circuitDark) lamps
      (observeAll a (bandObservations .lampCircuit j.band) (modAsset a (Asset.estimated lamps) (modAsset a (Asset.judged j) s)))) := by
  subst hl hj
  rw [modAsset_modAsset]
  simp only [judgedReading, if_pos h]
  rw [h]
  rfl

end

theorem bandObservations_loop (b : Band) : bandObservations .loop b = [⟨.loopOpen, decide (b = .failLow), 0⟩,
    ⟨.loopShort, decide (b = .failHigh), 0⟩, ⟨.loopDrift, decide (b = .low), 0⟩, ⟨.stuckPresent, decide (b = .high), 0⟩] := by
  cases b <;> rfl

theorem bandObservations_sign (b : Band) : bandObservations .sign b = [⟨.signDark, decide (b = .failLow), 0⟩] := by cases b <;> rfl

theorem bandObservations_lampCircuit (b : Band) : bandObservations .lampCircuit b = [⟨.circuitDark, decide (b = .failLow), 0⟩,
    ⟨.partialOut, decide (b = .low), 0⟩, ⟨.overcurrent, decide (b = .failHigh), 0⟩] := by
  cases b <;> rfl

/-! ## A MAIN reading (R73 to R75) -/

/-- R74: the gate holds a lamp circuit's reading while it settles or is UNKNOWN; else DAY compares it and NIGHT judges it. -/
theorem lampPath_eq (g : Gate) : lampPath g =
    if g.settling = true ∨ g.value = .unknown then .held else if g.value = .day then .daytime else .judged := by
  cases hs : g.settling <;> cases hv : g.value <;> simp [lampPath, hs, hv]

/-- R73: an asset's last MAIN reading is stored as it came. -/
def storeMain (a v : Nat) (s : State) : State := modAsset a (fun x => { x with lastMain := some v }) s

section
variable {s : State} {a : Nat} {x : Asset} (hx : assetOf s a = some x) (v : Nat)
include hx

/-- R73: a CABINET's MAIN reading is stored, and that is all. -/
theorem mainReading_cabinet (hk : x.settings.kind = .cabinet) : mainReading a v s = storeMain a v s := by
  simp only [mainReading, hx, hk, storeMain]

/-- R73, R79: a LOOP's or SIGN's MAIN reading is stored, scaled and judged. -/
theorem mainReading_unlit (hk : x.settings.kind = .loop ∨ x.settings.kind = .sign) {j : Judgement}
    (hj : j = judge (assetProfile s a) x.reference (scaleReading x.settings.doubling v)) : mainReading a v s =
    observeAll a (bandObservations x.settings.kind j.band) (modAsset a (Asset.judged j) (storeMain a v s)) := by
  subst hj
  rw [← judgedReading_unlit a _ _ _ (by rintro h; simp [h] at hk)]
  obtain hk | hk := hk <;> simp only [mainReading, hx, hk, storeMain]

/-- R73, R74: a lamp circuit's MAIN reading is stored and scaled, and then held, compared or judged as the gate says. -/
theorem mainReading_lamps (hk : x.settings.kind = .lampCircuit) : mainReading a v s =
    if s.gate.settling = true ∨ s.gate.value = .unknown then storeMain a v s
    else if s.gate.value = .day then
      daytimeReading a (assetProfile s a) (scaleReading x.settings.doubling v) (storeMain a v s)
    else judgedReading a x (assetProfile s a) (scaleReading x.settings.doubling v) (storeMain a v s) := by
  simp only [mainReading, hx, hk, modAsset_gate, lampPath_eq, storeMain]
  by_cases hheld : s.gate.settling = true ∨ s.gate.value = .unknown
  · simp only [if_pos hheld]
  · simp only [if_neg hheld]
    by_cases hday : s.gate.value = .day
    · simp only [if_pos hday]
    · simp only [if_neg hday]

end

/-! ## A new record (R92, R94) -/

/-- R94: the records of an asset are not held by the silence of an outstation that is not SILENT. -/
theorem assetSilent_false {s : State} {a n : Nat} {st : Station} (ha : (assetOf s a).map (fun x => x.settings.station) = some n)
    (hst : stationOf s n = some st) (hs : st.state ≠ .silent) : assetSilent s a = false := by
  obtain ⟨x, hx, rfl⟩ := Option.map_eq_some_iff.mp ha
  simp only [assetSilent, hx, hst, decide_eq_false hs]

/-- R94: a condition without a gate value is held by silence alone. -/
theorem heldBy_ungated {s : State} {a : Nat} {c : Condition} (hc : conditionGate c = none) (hs : assetSilent s a = false) :
    heldBy s a c = .notHeld := by
  have hg : gateMatches s.gate c = true := by rw [gateMatches, hc]
  rw [heldBy, hs, hg]
  rfl

/-- R92: with room in the table, a record under a confirm term is created and does not confirm at once. -/
theorem createRecord_waits {s : State} {key : Nat} {k : Seconds} (hroom : s.faults.length < Config.maxRecords)
    (hk : (profileTerms s key).confirm = .time k) (weight : Nat) : createRecord key weight s =
      { s with faults := Table.insert s.faults key (newRecord (now s) (profileTerms s key) weight) } := by
  have hfull : evidenceFull (newRecord (now s) (profileTerms s key) weight) = false := by simp only [evidenceFull, newRecord, hk]
  simp only [createRecord, if_pos hroom, confirmIfFull, recordOf, Table.find_insert_self, hfull, Bool.and_false, Bool.false_eq_true, if_false]

/-- R92: a present observation that is not held, for an asset and condition without a record. -/
theorem observe_unrecorded {s : State} {a : Nat} {c : Condition} (hh : heldBy s a c = .notHeld) (hr : recordOf s (recordKey a c) = none)
    (weight : Nat) : observe a c true weight s = createRecord (recordKey a c) weight s := by
  simp [observe, hh, hr]

end Sys2Proof.Machine

namespace Sys2Proof.Proofs

open Sys2Proof.Machine

/-- Settles O32: the Decoder's step is the entry's effect, the entry's effect is the classifier's, and the classifier's is the one that the role
and the kind of the asset name. -/
theorem entriesReachRecords : Obligations.EntriesReachRecords := by
  refine ⟨fun s i n a b st e role x hs hd hb he hst hsil hg hm hx => ?_,
    fun s i n a b st p edges k hs hd hb he hst hsil hg hm ha hr hroom hk => ?_⟩
  · have hmapped := applyOne_mapped hst hsil hg hm
    refine ⟨_, Decodes.applyEntry ⟨hs, hd, hb, he⟩, fun v edges hv => ?_, fun v hv => ?_⟩
    · rw [hv] at hmapped
      rw [applyOne_of_intake]
      refine ⟨?_, ?_, ?_⟩ <;> rintro rfl <;> exact hmapped rfl
    · rw [hv] at hmapped
      rw [applyOne_of_intake]
      refine ⟨?_, ?_⟩ <;> rintro rfl <;> refine (hmapped rfl).trans ?_
      · rfl
      · cases hk : x.settings.kind with
        | cabinet => exact mainReading_cabinet hx v hk
        | loop => exact (mainReading_unlit hx v (.inl hk) rfl).trans (by rw [hk, bandObservations_loop]; rfl)
        | sign => exact (mainReading_unlit hx v (.inr hk) rfl).trans (by rw [hk, bandObservations_sign]; rfl)
        | lampCircuit =>
          exact (mainReading_lamps hx v hk).trans
            (by rw [judgedReading_lamps a _ _ _ hk rfl rfl, bandObservations_lampCircuit]; rfl)
  · have hown : applyOne b { point := p, data := .digital 0 edges } s = createRecord (recordKey a .mainsLost) 0 s :=
      (applyOne_mapped (role := .supply) hst hsil hg hm rfl).trans
        (observe_unrecorded (heldBy_ungated rfl (assetSilent_false ha hst hsil)) hr 0)
    have hterms : profileTerms s (recordKey a .mainsLost) = termsOf .mainsLost (assetProfile s a) := profileTerms_recordKey s a _
    have hconfirm : (profileTerms s (recordKey a .mainsLost)).confirm = .time k := by rw [hterms, ← hk]; rfl
    refine ⟨_, newRecord (now s) (profileTerms s (recordKey a .mainsLost)) 0, Decodes.applyEntry ⟨hs, hd, hb, he⟩, ?_⟩
    rw [hown, createRecord_waits hroom hconfirm]
    refine ⟨rfl, Table.find_insert_self _ _ _, fun key hkey => Table.find_insert_ne _ _ hkey, rfl, rfl, rfl, rfl, hconfirm, rfl, rfl, rfl, ?_⟩
    simp only [newRecord, hconfirm]

end Sys2Proof.Proofs
end

section
/-! PROOF. A judged reading (R76 to R81): the bounds of the deviation, the way of the tracking step, the fields of a judgement, and the
lamps-out estimate. -/

namespace Sys2Proof.Machine

/-! ## The deviation (R77) -/

/-- R77: a scaled reading is never negative, so the quotient is never below -10000 and the lower end of the clamp changes nothing. -/
theorem deviationQuotient_ge (x : Nat) {r : Nat} (hr : r ≠ 0) : -10000 ≤ (((x : Int) - r) * 10000).tdiv r := by
  have hpos : (0 : Int) < r := by omega
  calc (-10000 : Int) = (-10000 * (r : Int)).tdiv r := (Int.mul_tdiv_cancel _ hpos.ne').symm
    _ ≤ (((x : Int) - r) * 10000).tdiv r := Int.tdiv_le_tdiv hpos (by omega)

theorem deviation_eq (x : Nat) {r : Nat} (hr : r ≠ 0) : deviation x r =
    if 32767 < (((x : Int) - r) * 10000).tdiv r then 32767 else (((x : Int) - r) * 10000).tdiv r := by
  have hlow := deviationQuotient_ge x hr
  rw [deviation]
  split <;> omega

theorem deviation_bounds (x r : Nat) : -10000 ≤ deviation x r ∧ deviation x r ≤ 32767 := by
  rw [deviation]
  omega

/-! ## Tracking (R80) -/

/-- R80: what is above the reference and what is below it are tracked alike. -/
theorem trackStep_swap (x r k : Nat) : trackStep r x k = -trackStep x r k := by
  have hquot : ((r : Int) - x).tdiv (2 ^ k) = -((x : Int) - r).tdiv (2 ^ k) := by rw [← Int.neg_tdiv, neg_sub]
  simp only [trackStep, hquot, neg_eq_zero]
  split
  · rcases Nat.lt_trichotomy r x with h | h | h <;> simp [h, h.not_gt]
  · rfl

/-- R80: the step moves the reference up to a reading above it, and by no more than the difference. -/
theorem trackStep_above {x r : Nat} (h : r < x) (k : Nat) : 0 < trackStep x r k ∧ trackStep x r k ≤ x - r := by
  have hnonneg : 0 ≤ ((x : Int) - r).tdiv (2 ^ k) := Int.tdiv_nonneg (by omega) (by positivity)
  have hle : ((x : Int) - r).tdiv (2 ^ k) ≤ x - r := Int.tdiv_le_self _ (by omega)
  simp only [trackStep, if_pos h]
  split <;> omega

theorem trackStep_below {x r : Nat} (h : x < r) (k : Nat) : (x : Int) - r ≤ trackStep x r k ∧ trackStep x r k < 0 := by
  have hup := trackStep_above h k
  rw [trackStep_swap] at hup
  omega

theorem trackStep_self (r k : Nat) : trackStep r r k = 0 := by
  simp [trackStep]

/-- R80: the step never takes the reference below 0. -/
theorem trackReference_eq (x r k : Nat) : (trackReference x r k : Int) = r + trackStep x r k := by
  refine Int.toNat_of_nonneg ?_
  rcases Nat.lt_trichotomy r x with h | rfl | h
  · have := trackStep_above h k
    omega
  · rw [trackStep_self]
    omega
  · have := trackStep_below h k
    omega

theorem trackReference_above {x r : Nat} (h : r < x) (k : Nat) : r < trackReference x r k ∧ trackReference x r k ≤ x := by
  have heq := trackReference_eq x r k
  have hstep := trackStep_above h k
  omega

theorem trackReference_below {x r : Nat} (h : x < r) (k : Nat) : x ≤ trackReference x r k ∧ trackReference x r k < r := by
  have heq := trackReference_eq x r k
  have hstep := trackStep_below h k
  omega

theorem trackReference_self (r k : Nat) : trackReference r r k = r := by
  have heq := trackReference_eq r r k
  rw [trackStep_self] at heq
  omega

/-! ## A judgement (R76, R77, R78, R80) -/

section
variable (p : Profile) (x : Nat) {r : Nat}

/-- R76: the reading of an unlearned asset. -/
theorem judge_unlearned : judge p 0 x =
    ⟨if p.learnFloor ≤ x then .normal else .failLow, if p.learnFloor ≤ x then x else 0, 0⟩ := by
  by_cases h : p.learnFloor ≤ x <;> simp [judge, h]

theorem judge_deviation (hr : r ≠ 0) : (judge p r x).deviation = deviation x r := by
  simp only [judge, if_neg hr]

theorem judge_band (hr : r ≠ 0) : (judge p r x).band = bandOf p (judge p r x).deviation := by
  simp only [judge, if_neg hr]

theorem judge_reference (hr : r ≠ 0) : (judge p r x).reference =
    if (judge p r x).band = .normal then trackReference x r p.trackShift else r := by
  simp only [judge, if_neg hr]

end

/-! ## The lamps-out estimate (R81) -/

theorem deviationEstimate_le (d : Int) (n : Nat) : deviationEstimate d n ≤ n := by
  rw [deviationEstimate]
  split <;> omega

/-- R81: no deviation is below -10000, so the clamp to the lamp count changes nothing. -/
theorem deviationEstimate_of_neg {d : Int} (hneg : d < 0) (hlow : -10000 ≤ d) (n : Nat) :
    (deviationEstimate d n : Int) = (-d * n + 5000) / 10000 := by
  have habs : (d.natAbs : Int) = -d := by omega
  have hshare : d.natAbs * n ≤ 10000 * n := Nat.mul_le_mul_right n (by omega)
  rw [deviationEstimate, if_pos hneg, Nat.min_eq_right (by omega), ← habs]
  push_cast
  rfl

theorem lampsEstimate_failLow (d : Int) (n : Nat) : lampsEstimate .failLow d n = n := if_pos rfl

theorem lampsEstimate_other {b : Band} (hb : b ≠ .failLow) (d : Int) (n : Nat) : lampsEstimate b d n = deviationEstimate d n := if_neg hb

theorem lampsEstimate_le (b : Band) (d : Int) (n : Nat) : lampsEstimate b d n ≤ n := by
  by_cases hb : b = .failLow
  · rw [hb, lampsEstimate_failLow]
  · rw [lampsEstimate_other hb]
    exact deviationEstimate_le d n

end Sys2Proof.Machine

namespace Sys2Proof.Proofs

open Sys2Proof.Machine

/-- Settles O35: the quotient of a deviation needs no clamp from below, the estimate none from above, and the tracking
step lies between 0 and the difference, on the side of the reading. -/
theorem judgedReadingMovesReference : Obligations.JudgedReadingMovesReference := by
  refine ⟨fun p r x => ⟨?unlearned, fun hr => ⟨⟨?quotient, ?clamped⟩, ?band, ?low, ?high, ?outside, fun hband => ?normal⟩⟩,
    fun b d n => ⟨lampsEstimate_le b d n, ?all, ?none, ?share⟩⟩
  case unlearned =>
    rintro rfl
    rw [judge_unlearned]
    exact ⟨rfl, rfl, rfl⟩
  case quotient => exact deviationQuotient_ge x hr
  case clamped => rw [judge_deviation p x hr, deviation_eq x hr]
  case band => exact judge_band p x hr
  case low =>
    rw [judge_deviation p x hr]
    exact (deviation_bounds x r).1
  case high =>
    rw [judge_deviation p x hr]
    exact (deviation_bounds x r).2
  case outside => exact fun hband => (judge_reference p x hr).trans (if_neg hband)
  case normal =>
    rw [judge_reference p x hr, if_pos hband]
    refine ⟨?_, fun h => trackReference_above h _, fun h => trackReference_below h _, ?_⟩
    · rw [trackReference_eq]
      simp only [trackStep, ite_not]
    · rintro rfl
      exact trackReference_self _ _
  case all =>
    rintro rfl
    exact lampsEstimate_failLow d n
  case none =>
    intro hb hd
    rw [lampsEstimate_other hb, deviationEstimate, if_neg hd.not_gt]
  case share =>
    intro hb hneg hlow
    rw [lampsEstimate_other hb, deviationEstimate_of_neg hneg hlow]

end Sys2Proof.Proofs
end

section
/-! PROOF. Every record goes on fitting its condition (R89, R91, R111): what the primitive changes do to the records, and the step. -/

namespace Sys2Proof.Machine

/-! ## The fault table -/

/-- A change of the record at one key that keeps it fitting keeps every record fitting. -/
theorem RecordsFit.modRecord {s : State} (h : RecordsFit s) {key : Nat} {f : Record → Record}
    (hf : ∀ r, RecordFits key r → RecordFits key (f r)) : RecordsFit (modRecord key f s) := by
  intro e he
  obtain ⟨e, he', rfl⟩ := List.mem_map.mp he
  split
  · rename_i hk
    subst hk
    exact hf _ (h e he')
  · exact h e he'

/-- R92: a record that fits is added to records that fit. -/
theorem RecordsFit.insert {s : State} (h : RecordsFit s) {key : Nat} {r : Record} (hr : RecordFits key r) :
    RecordsFit { s with faults := Table.insert s.faults key r } := by
  intro e he
  rcases Table.mem_insert _ _ _ e he with rfl | he
  · exact hr
  · exact h e he

/-- R108: the records that are left fit. -/
theorem RecordsFit.erase {s : State} (h : RecordsFit s) (key : Nat) : RecordsFit { s with faults := Table.erase s.faults key } :=
  fun e he => h e (List.mem_of_mem_filter he)

/-- A waiting mark is nothing that a record's condition asks about. -/
theorem RecordFits.mark {key : Nat} {r : Record} (h : RecordFits key r) (m : Option Reason) : RecordFits key { r with waiting := m } :=
  ⟨h.trail, h.recurrence, h.term, h.evidence, h.window⟩

theorem recordsFit_markClosed : MarkClosed RecordsFit where
  mark {m t s} h := by
    cases t with
    | record key => exact h.modRecord fun _ hr => hr.mark m
    | incident n => exact h
  queue _ h := h

/-- A queue action sets marks and changes the queue, which holds no record. -/
theorem recordsFit_queueAction {s : State} (h : RecordsFit s) (ts : List Thing) : RecordsFit (queueAction ts s) := by
  have hu := handAll_kept recordsFit_markClosed ts h
  unfold queueAction noteAlert noteHead
  split <;> exact hu

/-- An empty fault table has no record that does not fit. -/
theorem recordsFit_of_empty {s : State} (h : s.faults = []) : RecordsFit s := fun e he => nomatch (h ▸ he : e ∈ [])

/-! ## The primitive changes -/

/-- Each primitive change of the state keeps the records fitting: most leave the fault table alone, and a reset empties it. -/
theorem recordsFit_closed : Closed RecordsFit where
  gate _ h := h
  station _ h := h
  asset h := h
  recordInsert _ hr _ h := h.insert hr
  recordErase h := h.erase _
  record hf h := h.modRecord fun r => (hf r).1
  slot _ h := h
  window _ h := h
  queue h := recordsFit_queueAction h _
  flags h := h
  timebase _ h := h
  stationInsert _ h := h
  stationErase h := h
  assetInsert h := h
  assetErase h := h
  profiles h := h
  area h := h
  line _ h := h
  intake _ h := h
  noticeTaken h := h
  flash h := h
  alert h := h
  notices h := h
  link _ h := h
  saveCount _ _ h := h
  saveEnd h := h
  saveStart h := h
  saveDone h := by
    unfold completeSave
    split <;> exact h
  tick h := h
  pending h := h
  powerOn _ := recordsFit_of_empty rfl
  restart _ := recordsFit_of_empty rfl
  factory _ := recordsFit_of_empty rfl

end Sys2Proof.Machine

namespace Sys2Proof.Proofs

open Sys2Proof.Machine

/-- Settles O56: fitting is closed under the primitive changes, so a step keeps it. -/
theorem stepKeepsRecordsFitting : Obligations.StepKeepsRecordsFitting := fun _ _ h hs => step_closed recordsFit_closed h hs

end Sys2Proof.Proofs
end

section
/-! PROOF. A record's own command at a tick (R95, R96, R99, R102, R109): what the record's tick comes to, end by end, and that the qualifier's way on
to the next record leaves it alone. With it the confirm term (R96, R100), the count window (R99) and the escalation (R109, R110). -/

namespace Sys2Proof.Machine

/-! ## The ends of a record's tick -/

theorem confirmsNext_iff (r : Record) : confirmsNext r = true ↔ r.state = .qualifying ∧ ∃ n, r.terms.confirm = .time n ∧ n ≤ r.timer + 1 := by
  unfold confirmsNext
  split
  · rename_i n hc; simp [hc]
  · rename_i hc; simp [hc]

theorem expiresNext_iff (r : Record) :
    expiresNext r = true ↔ r.state = .qualifying ∧ (∃ n w, r.terms.confirm = .count n w) ∧ r.windowLeft.getD 0 ≤ 1 := by
  unfold expiresNext
  split
  · rename_i hc; simp [hc]
  · rename_i hc; simp [hc]

theorem clearsNext_iff (r : Record) : clearsNext r = true ↔ r.state = .restoring ∧ r.terms.clearTime ≤ r.timer + 1 := by simp [clearsNext]

/-- R96, R99: past QUALIFYING no confirm term and no window comes to its end. -/
theorem neither_qualifies {r : Record} (h : r.state ≠ .qualifying) : confirmsNext r = false ∧ expiresNext r = false :=
  ⟨Bool.eq_false_of_not_eq_true fun hc => h ((confirmsNext_iff r).mp hc).1,
    Bool.eq_false_of_not_eq_true fun hc => h ((expiresNext_iff r).mp hc).1⟩

/-- R109: a QUALIFYING or RESTORED record does not escalate. -/
theorem escalates_standing {r : Record} (h : escalates r = true) : standing r = true := by
  simp only [escalates, Bool.and_eq_true] at h
  exact h.2

theorem standing_active {r : Record} (h : r.state = .active) (hs : r.seen = false) (hi : r.incident = none) : standing r = true := by
  simp [standing, h, hs, hi]

theorem standing_iff (r : Record) :
    standing r = true ↔ (r.state = .active ∨ r.state = .restoring) ∧ r.seen = false ∧ r.incident = none := by
  simp [standing, and_assoc]

theorem riseEscTimer_standing {r : Record} (h : standing r = true) : riseEscTimer r = { r with escTimer := min 65535 (r.escTimer + 1) } := if_pos h

theorem riseEscTimer_not_standing {r : Record} (h : standing r = false) : riseEscTimer r = r := if_neg (by simp [h])

/-- R109: no tick escalates a QUALIFYING record. -/
theorem escalates_qualifying {r : Record} (h : r.state = .qualifying) : escalates (riseEscTimer r) = false := by
  have hs : standing r = false := by simp [standing, h]
  rw [riseEscTimer_not_standing hs]
  exact Bool.eq_false_of_not_eq_true fun he => by simp [escalates_standing he] at hs

/-! ## A record's tick, end by end -/

section
variable {s : State} {key : Nat} {r : Record} (hr : recordOf s key = some r)
include hr

theorem recordTickBy_eq (order : Record → Bool) : recordTickBy order key s = recordTick (order r) key s := by simp only [recordTickBy, hr]

/-- R94: a held record's tick changes nothing. -/
theorem recordTickDefault_held (hh : isHeld s key = true) : recordTickDefault s key = s := by
  simp only [recordTickDefault, recordTickBy_eq hr, recordTick, hr, hh, if_true]

section
variable (hh : isHeld s key = false) (first : Bool)
include hh

/-- R96: the tick at the confirm term confirms the record. -/
theorem recordTick_confirms (h : confirmsNext r = true) : recordTick first key s = confirmRecord key s := by
  simp [recordTick, hr, hh, h]

/-- R99: the tick that ends the window removes the record. -/
theorem recordTick_expires (h : expiresNext r = true) : recordTick first key s = removeRecord key s := by
  have hc : confirmsNext r = false := Bool.eq_false_of_not_eq_true fun hc => by
    obtain ⟨-, ⟨n, w, hcount⟩, -⟩ := (expiresNext_iff r).mp h
    obtain ⟨-, m, htime, -⟩ := (confirmsNext_iff r).mp hc
    cases hcount.symm.trans htime
  simp [recordTick, hr, hh, hc, h]

/-- R102: the tick at clear_time clears the record. -/
theorem recordTick_clears (h : clearsNext r = true) : recordTick first key s = clearingTick first key r s := by
  obtain ⟨hc, he⟩ := neither_qualifies (r := r) (by simp [((clearsNext_iff r).mp h).1])
  simp [recordTick, hr, hh, hc, he, h]

/-- R109: the tick of an ACTIVE record raises its escalation timer and makes the test. -/
theorem recordTick_active (h : r.state = .active) : recordTick first key s = escalationTest key (modRecord key countTick s) := by
  obtain ⟨hc, he⟩ := neither_qualifies (r := r) (by simp [h])
  have hn : clearsNext r = false := by simp [clearsNext, h]
  simp [recordTick, hr, hh, hc, he, hn]

end

/-- An unheld tick that brings the record to no end changes its counts alone. -/
theorem recordTickDefault_counts (hh : isHeld s key = false) (he : (endingOf r).any = false) :
    recordTickDefault s key = modRecord key countTick s := by
  simp only [endingOf, Ending.any, Bool.or_eq_false_iff] at he
  obtain ⟨⟨⟨hc, hx⟩, hl⟩, hes⟩ := he
  have ht : escalationTest key (modRecord key countTick s) = modRecord key countTick s := by
    refine escalationTest_fails (r := countTick r) ?_ ?_
    · rw [recordOf_modRecord_self, hr]; rfl
    · rw [escalates_countTick, hes]
  simp [recordTickDefault, recordTickBy_eq hr, recordTick, hr, hh, hc, hx, hl, ht]

end

/-- A QUALIFYING record whose confirm term and window run on is brought to no end. -/
theorem endingOf_qualifying {r : Record} (h : r.state = .qualifying) (hc : confirmsNext r = false) (hx : expiresNext r = false) :
    (endingOf r).any = false := by
  simp [endingOf, Ending.any, hc, hx, clearsNext, h, escalates_qualifying h]

/-! ## The qualifier's way (R95) -/

/-- In a rising list, what is left from one of its members on begins with that member. -/
theorem filter_le_of_mem {l : List Nat} (hl : l.Pairwise (· < ·)) {k : Nat} (hk : k ∈ l) :
    ∃ rest, l.filter (fun n => decide (k ≤ n)) = k :: rest := by
  induction l with
  | nil => cases hk
  | cons a l ih =>
    obtain ⟨ha, hl⟩ := List.pairwise_cons.mp hl
    rcases List.mem_cons.mp hk with rfl | hk
    · exact ⟨_, List.filter_cons_of_pos (by simp)⟩
    · rw [List.filter_cons_of_neg (by simpa using ha k hk)]
      exact ih hl hk

/-- The command of a record has left it, and everything but the fault table and the tick, as they were. -/
structure PassedFrame (key : Nat) (s t : State) : Prop where
  frame : t = { s with faults := t.faults, tick := t.tick }
  record : recordOf t key = recordOf s key

theorem PassedFrame.trans {key : Nat} {s t u : State} (h : PassedFrame key s t) (k : PassedFrame key t u) : PassedFrame key s u :=
  ⟨by rw [k.frame, h.frame], k.record.trans h.record⟩

theorem PassedFrame.slotOf {key : Nat} {s t : State} (h : PassedFrame key s t) (n : Nat) : Machine.slotOf t n = Machine.slotOf s n := by
  rw [h.frame]; rfl

theorem modTick_passed (key : Nat) (f : TickDue → TickDue) (s : State) : PassedFrame key s (modTick f s) := ⟨rfl, rfl⟩

theorem clearIfDone_passed (key : Nat) (s : State) : PassedFrame key s (clearIfDone s) := by
  unfold clearIfDone
  split
  · exact modTick_passed key _ s
  · exact ⟨rfl, rfl⟩

/-- The qualifier that stands past a record does not come back to it. -/
theorem qualifyOn_passed {key : Nat} {s : State} (h : s.tick.qualifier = some (key + 1)) : PassedFrame key s (qualifyOn s) := by
  have hf := qualifyUpTo_frame (dueKeys s) s
  have hd : key ∉ dueKeys s := by simp [dueKeys, h]
  simp only [qualifyOn, h]
  exact ⟨by rw [hf.frame], hf.others key hd⟩

section
variable {s : State} {a : Nat} {c : Condition} {r : Record} (h : StandsAt s a c r)
include h

/-- The qualifier stays where it stands while its record is brought to an end there. -/
theorem StandsAt.qualifyOn (he : (endingOf r).any = true) : qualifyOn s = s := by
  have hmem : recordKey a c ∈ Table.keys s.faults := List.mem_map_of_mem (f := Prod.fst) (Table.mem_of_find h.record)
  obtain ⟨rest, hrest⟩ := filter_le_of_mem ((Table.wf_iff _).mp h.keys) hmem
  have hdue : dueKeys s = recordKey a c :: rest := by simp only [dueKeys, h.due, hrest]
  have hends : recordEnds s (recordKey a c) = true := by simp [recordEnds, h.record, h.unheld, he]
  simp only [Machine.qualifyOn, h.due, hdue, qualifyUpTo, hends, if_true]
  rw [modTick, ← h.due]

/-- A record's own command is the record's tick, for the record and for every block but fault table and tick. -/
theorem StandsAt.recordEvent {p : Ending → Bool} (hp : p (endingOf r) = true) (he : (endingOf r).any = true) (order : Record → Bool) :
    PassedFrame (recordKey a c) (recordTick (order r) (recordKey a c) s) (clearIfDone (recordEvent a c p order s)) := by
  have hs : standsAt s (recordKey a c) p = true := by simp [standsAt, h.due, h.record, h.unheld, hp]
  simp only [Machine.recordEvent, h.qualifyOn he, hs, if_true, recordTickBy_eq h.record]
  exact (modTick_passed _ _ _).trans ((qualifyOn_passed rfl).trans (clearIfDone_passed _ _))

end

/-! ## Confirmation (R100) -/

theorem TablesFrame.quality {s t : State} (h : TablesFrame s t) : Machine.quality t = Machine.quality s := by
  simp only [Machine.quality, h.timebase]

/-- R100: q is the record r after its confirmation, at a second and a time quality, under new terms; membership, seen mark and waiting mark are what the
Incident Table and the queue make of them. -/
structure Confirmed (t : Seconds) (y : Quality) (new : Terms) (r q : Record) : Prop where
  state : q.state = .active
  timer : q.timer = 0
  confirmed : q.confirmed = some t
  restored : q.restored = none
  escalated : q.escalated = false
  escTimer : q.escTimer = 0
  windowLeft : q.windowLeft = none
  quality : q.quality = some y
  terms : q.terms = new
  trail : q.trail = addTrail r.trail ⟨.active, t⟩
  observed : q.observed = r.observed
  recurrence : q.recurrence = r.recurrence
  created : q.created = r.created
  evidence : q.evidence = r.evidence
  lampsOut : q.lampsOut = r.lampsOut

/-- Claims and queue actions leave the fields of a confirmation. -/
theorem confirmed_of_unclaimed {t : Seconds} {y : Quality} {new : Terms} {r q : Record}
    (h : q.unclaimed = (confirmFields t y { r with terms := new }).unclaimed) : Confirmed t y new r q :=
  ⟨(congrArg Record.state h :), (congrArg Record.timer h :), (congrArg Record.confirmed h :), (congrArg Record.restored h :),
    (congrArg Record.escalated h :), (congrArg Record.escTimer h :), (congrArg Record.windowLeft h :), (congrArg Record.quality h :),
    (congrArg Record.terms h :), (congrArg Record.trail h :), (congrArg Record.observed h :), (congrArg Record.recurrence h :),
    (congrArg Record.created h :), (congrArg Record.evidence h :), (congrArg Record.lampsOut h :)⟩

/-- R100, R123: a record that confirms, known but for its waiting mark. -/
theorem recordOf_confirmRecord_fields {s : State} {key : Nat} {p r : Record} (hp : recordOf s key = some p) (hr : p.unmarked = r.unmarked) :
    ∃ q, recordOf (confirmRecord key s) key = some q ∧ Confirmed (now s) (quality s) (profileTerms s key) r q := by
  obtain ⟨m, e, hm, hu⟩ := recordOf_takeTerms hp
  have hf := takeTerms_frame key s
  have hfields : recordOf (modRecord key (confirmFields (now (takeTerms key s)) (quality (takeTerms key s))) (takeTerms key s)) key =
      some (confirmFields (now s) (quality s) m) := by
    rw [recordOf_modRecord_self, hm, hf.now, hf.quality]; rfl
  have hclaims : ClaimFrame _ (confirmRecord key s) := (claimSlots_claims key _).trans (queueAction_frame _ _).claims
  obtain ⟨q, hq, hv⟩ := hclaims.record_some hfields
  refine ⟨q, hq, confirmed_of_unclaimed (hv.trans ?_)⟩
  calc (confirmFields (now s) (quality s) m).unclaimed
      = (confirmFields (now s) (quality s) m.unmarked).unclaimed := rfl
    _ = (confirmFields (now s) (quality s) { p.unmarked with terms := profileTerms s key }).unclaimed := by rw [hu]; rfl
    _ = (confirmFields (now s) (quality s) { r.unmarked with terms := profileTerms s key }).unclaimed := by rw [hr]

/-! ## Escalation (R109, R110) -/

/-- R109, R110: the tick at the escalation term of an ACTIVE record escalates it. -/
theorem recordTick_escalates {s : State} {key : Nat} {r : Record} (hr : recordOf s key = some r) (hh : isHeld s key = false)
    (hs : r.state = .active) (he : escalates (riseEscTimer r) = true) (first : Bool) :
    TablesFrame s (recordTick first key s) ∧ ∃ q, recordOf (recordTick first key s) key = some q ∧
      q.unmarked = { riseEscTimer r with escalated := true, waiting := none } := by
  have hcount : countTick r = riseEscTimer r := by simp [countTick, hs]
  have hm : recordOf (modRecord key countTick s) key = some (riseEscTimer r) := by rw [recordOf_modRecord_self, hr, ← hcount]; rfl
  have hheld : isHeld (modRecord key countTick s) key = false := hh
  rw [recordTick_active hr hh first hs]
  refine ⟨(modRecord_frame key _ s).toTablesFrame.trans (escalationTest_frame key _), ?_⟩
  obtain ⟨q, hq, hu⟩ := recordOf_escalationTest hm
  exact ⟨q, hq, hu.trans (by simp [he, hheld])⟩

/-- R110: the effective priority of an escalated record. -/
theorem recordPriority_escalated {s t : State} (h : t.directory = s.directory) (a : Nat) (c : Condition) {q : Record} (hq : q.escalated = true) :
    recordPriority t (recordKey a c) q = max 1 (assetPriority s a - 1) := by
  simp [recordPriority, hq, assetPriority, assetOf, h]

end Sys2Proof.Machine

namespace Sys2Proof.Proofs

open Sys2Proof.Machine

/-- Settles O10. The tick that ends the window removes the record; any other unheld tick counts it down. -/
theorem countWindowExpiryRemovesRecord : Obligations.CountWindowExpiryRemovesRecord := by
  refine ⟨fun s a c r n w h hs hc hw => ?_, fun s key r n left w hr hs hc hw => ⟨recordTickDefault_held hr, fun hh hl => ?_⟩⟩
  · have hx : expiresNext r = true := (expiresNext_iff r).mpr ⟨hs, ⟨n, w, hc⟩, hw⟩
    have hp := h.recordEvent (p := Ending.expires) hx (by simp [endingOf, Ending.any, hx]) defaultEscalateFirst
    rw [recordTick_expires h.record h.unheld _ hx] at hp
    have hf := (removeRecord_frame (recordKey a c) s).toTablesFrame
    refine ⟨_, rfl, hp.record.trans (recordOf_removeRecord _ _), ?_⟩
    rw [hp.frame]
    exact ⟨hf.timebase, hf.gate, hf.directory, hf.lines, hf.intake, hf.link, hf.store, hf.pending⟩
  · have hn : confirmsNext r = false := by simp [confirmsNext, hc]
    have hx : expiresNext r = false := by simp [expiresNext, hc, hw, hl]
    refine ⟨_, rfl, ?_⟩
    rw [recordTickDefault_counts hr hh (endingOf_qualifying hs hn hx)]
    refine ⟨rfl, ?_, fun k hk => recordOf_modRecord_ne _ _ hk⟩
    rw [recordOf_modRecord_self, hr]
    simp [countTick, hs, hc, hw]

/-- Settles O12. The test at the term escalates the record, and the qualifier leaves it so. -/
theorem escalationRaisesPriority : Obligations.EscalationRaisesPriority := by
  intro s a c r h hs hseen hi he h0 hle
  have hst : riseEscTimer r = { r with escTimer := min 65535 (r.escTimer + 1) } := riseEscTimer_standing (standing_active hs hseen hi)
  have hx : escalates (riseEscTimer r) = true := by
    rw [hst]
    simp [escalates, standing, h0, hle, he, hs, hseen, hi]
  have hp := h.recordEvent (p := Ending.escalates) hx (by simp [endingOf, Ending.any, hx]) (fun _ => true)
  obtain ⟨hf, q, hq, hu⟩ := recordTick_escalates h.record h.unheld hs hx true
  refine ⟨_, q, rfl, hp.record.trans hq, hu.trans (by rw [hst]), recordPriority_escalated ?_ a c (congrArg Record.escalated hu)⟩
  rw [hp.frame]
  exact hf.directory

end Sys2Proof.Proofs
end

section
/-! PROOF. What an observation does to the record of its asset and condition (R92 to R95, R97, R98, R101, R102, R105, R106), state by state; and
with it the confirm term (R96). -/

namespace Sys2Proof.Machine

/-! ## Evidence (R98) -/

/-- R98: the evidence of a record after an observation of a weight; a record that is no COUNT record keeps its own. -/
def Record.gained (w : Nat) (r : Record) : Nat :=
  match r.terms.confirm with
  | .count _ _ => min 65535 (r.evidence + w)
  | .time _ => r.evidence

theorem addEvidence_eq (w : Nat) (r : Record) : addEvidence w r = { r with evidence := r.gained w } := by
  cases hc : r.terms.confirm <;> simp only [addEvidence, Record.gained, hc]

theorem evidenceFull_iff (r : Record) : evidenceFull r = true ↔ ∃ n k, r.terms.confirm = .count n k ∧ n ≤ r.evidence := by
  unfold evidenceFull
  split
  · rename_i hc; simp [hc]
  · rename_i hc; simp [hc]

/-- R98: evidence short of every count is not full. -/
theorem evidenceFull_short {r : Record} (h : ∀ n k, r.terms.confirm = .count n k → r.evidence < n) : evidenceFull r = false := by
  refine Bool.eq_false_of_not_eq_true fun hf => ?_
  obtain ⟨n, k, hc, hn⟩ := (evidenceFull_iff r).mp hf
  exact absurd (h n k hc) (Nat.not_lt_of_le hn)

/-- R98: a record under a confirm term has no evidence to fill. -/
theorem evidenceFull_time {r : Record} {n : Seconds} (h : r.terms.confirm = .time n) : evidenceFull r = false :=
  evidenceFull_short fun m k hc => by cases h.symm.trans hc

section
variable {s : State} {key : Nat} {r : Record} (hr : recordOf s key = some r)
include hr

theorem confirmIfFull_waits (hf : evidenceFull r = false) : confirmIfFull key s = s := by simp [confirmIfFull, hr, hf]

theorem confirmIfFull_confirms (hs : r.state = .qualifying) (hf : evidenceFull r = true) : confirmIfFull key s = confirmRecord key s := by
  simp [confirmIfFull, hr, hs, hf]

end

/-! ## The taking of terms (R109, R111) -/

theorem TablesFrame.profileTerms {s t : State} (h : TablesFrame s t) (key : Nat) : Machine.profileTerms t key = Machine.profileTerms s key := by
  simp only [Machine.profileTerms, assetProfile, Machine.assetOf, profileOf, h.directory]

/-- R109: the escalated mark of an ACTIVE or RESTORING record that is not held, once it has taken terms and been tested. -/
def Record.escalatedUnder (new : Terms) (r : Record) : Bool :=
  r.escalated || (decide (new.escalateAfter ≠ 0) && decide (new.escalateAfter ≤ r.escTimer) && !r.seen && decide (r.incident = none))

/-- R109, R111: an ACTIVE or RESTORING record that is not held takes the profile's terms and is tested. -/
theorem recordOf_takeTerms_standing {s : State} {key : Nat} {r : Record} (hr : recordOf s key = some r) (hh : isHeld s key = false)
    (hs : r.state = .active ∨ r.state = .restoring) : (recordOf (takeTerms key s) key).map Record.unmarked =
      some { r with terms := profileTerms s key, escalated := r.escalatedUnder (profileTerms s key), waiting := none } := by
  obtain ⟨q, hq, hu⟩ := recordOf_escalationTest (recordOf_adoptTerms hr)
  have hq' : recordOf (takeTerms key s) key = some q := hq
  have hpast : r.state ≠ .qualifying ∧ r.state ≠ .restored := by rcases hs with hs | hs <;> simp [hs]
  rw [hq', Option.map_some, hu, isHeld_adoptTerms, hh, escalates_past_qualifying (by exact hpast.1), Record.escalatedUnder]
  cases r.escalated <;> simp [hpast.2, Bool.and_assoc]

/-- R109, R111: a RESTORED record takes the profile's terms and does not escalate. -/
theorem takeTerms_restored {s : State} {key : Nat} {r : Record} (hr : recordOf s key = some r) (hs : r.state = .restored) :
    takeTerms key s = adoptTerms key s :=
  escalationTest_not_standing (recordOf_adoptTerms hr) (by simp [standing, hs])

/-! ## A new record (R92, R93) -/

/-- R92: the record of a present observation has been created. -/
def recordMade (key weight : Nat) (s : State) : State :=
  { s with faults := Table.insert s.faults key (newRecord (now s) (profileTerms s key) weight) }

section
variable (key weight : Nat) (s : State)

theorem recordMade_frame : TablesFrame s (recordMade key weight s) := ⟨rfl, rfl, rfl, rfl, rfl, rfl, rfl, rfl, rfl⟩

@[simp] theorem recordOf_recordMade_self :
    recordOf (recordMade key weight s) key = some (newRecord (now s) (profileTerms s key) weight) := Table.find_insert_self _ _ _

theorem recordOf_recordMade_ne {k : Nat} (h : k ≠ key) : recordOf (recordMade key weight s) k = recordOf s k := Table.find_insert_ne _ _ h

/-- R92: with room in the table the record is created, and a COUNT record may confirm at once. -/
theorem createRecord_room {s : State} (h : s.faults.length < Config.maxRecords) :
    createRecord key weight s = confirmIfFull key (recordMade key weight s) := if_pos h

/-- R93: in a full table nothing is created. -/
theorem createRecord_full {s : State} (h : s.faults.length = Config.maxRecords) : createRecord key weight s = raiseTableFull s :=
  if_neg (by rw [h]; exact Nat.lt_irrefl _)

end

/-! ## The record of an observation -/

/-- R95: the observed field of a record. -/
def setObserved (key : Nat) (present : Bool) (s : State) : State := modRecord key (fun r => { r with observed := present }) s

theorem setObserved_frame (key : Nat) (present : Bool) (s : State) : TablesFrame s (setObserved key present s) :=
  (modRecord_frame key _ s).toTablesFrame

theorem recordOf_setObserved {s : State} {key : Nat} {r : Record} (hr : recordOf s key = some r) (present : Bool) :
    recordOf (setObserved key present s) key = some { r with observed := present } := by
  rw [setObserved, recordOf_modRecord_self, hr]; rfl

theorem recordOf_setObserved_ne {key k : Nat} (h : k ≠ key) (present : Bool) (s : State) :
    recordOf (setObserved key present s) k = recordOf s k := recordOf_modRecord_ne _ _ h

/-- R94: an observation of a held asset and condition is discarded. -/
theorem observe_held {s : State} {a : Nat} {c : Condition} (h : heldBy s a c ≠ .notHeld) (present : Bool) (w : Nat) :
    observe a c present w s = s := if_pos h

/-- R92: an absent observation creates no record. -/
theorem observe_absent_unrecorded {s : State} {a : Nat} {c : Condition} (hr : recordOf s (recordKey a c) = none) (w : Nat) :
    observe a c false w s = s := by
  simp [observe, hr]

/-- R95: an observation that is not held sets the observed field of its record and does what the record's state says. -/
theorem observe_recorded {s : State} {a : Nat} {c : Condition} {r : Record} (hh : heldBy s a c = .notHeld)
    (hr : recordOf s (recordKey a c) = some r) (present : Bool) (w : Nat) :
    observe a c present w s = observeRecord (recordKey a c) w present r (setObserved (recordKey a c) present s) := by
  simp only [observe, hh, hr, ne_eq, not_true_eq_false, if_false]
  rfl

section
variable {r : Record} (key w : Nat) (u : State)

/-- R97: a QUALIFYING record under a confirm term that is observed absent is a transient. -/
theorem observeRecord_transient (hs : r.state = .qualifying) {n : Seconds} (hn : r.terms.confirm = .time n) :
    observeRecord key w false r u = removeRecord key u := by simp only [observeRecord, hs, hn]

/-- R95, R98: of a QUALIFYING COUNT, a RESTORING and a RESTORED record an absent observation changes the observed field alone. -/
theorem observeRecord_absent (hs : (r.state = .qualifying ∧ ∃ n k, r.terms.confirm = .count n k) ∨ r.state = .restoring ∨ r.state = .restored) :
    observeRecord key w false r u = u := by
  rcases hs with ⟨hs, n, k, hn⟩ | hs | hs
  · simp only [observeRecord, hs, hn]
  · simp only [observeRecord, hs]
  · simp only [observeRecord, hs]

theorem observeRecord_absent_active (hs : r.state = .active) : observeRecord key w false r u = enterRestoring key u := by
  simp only [observeRecord, hs]

theorem observeRecord_present_qualifying (hs : r.state = .qualifying) :
    observeRecord key w true r u = confirmIfFull key (modRecord key (addEvidence w) u) := by simp only [observeRecord, hs]

theorem observeRecord_present_active (hs : r.state = .active) : observeRecord key w true r u = modRecord key (addEvidence w) u := by
  simp only [observeRecord, hs]

theorem observeRecord_present_restoring (hs : r.state = .restoring) : observeRecord key w true r u = returnToActive key w u := by
  simp only [observeRecord, hs]

theorem observeRecord_present_restored (hs : r.state = .restored) : observeRecord key w true r u = recur key w u := by
  simp only [observeRecord, hs]

end

/-! ## An absent observation -/

/-- R108: the removal of a record outside every incident leaves the other records and the slots as they are. -/
theorem removeRecord_single {s : State} {key : Nat} {r : Record} (hr : recordOf s key = some r) (hi : r.incident = none) :
    (∀ k, k ≠ key → (recordOf (removeRecord key s) k).map Record.unmarked = (recordOf s k).map Record.unmarked) ∧
      ∀ n, (slotOf (removeRecord key s) n).unmarked = (slotOf s n).unmarked := by
  have hq : MarkFrame (takeRecord key s) (removeRecord key s) := queueAction_frame _ _
  refine ⟨fun k hk => ?_, fun n => ?_⟩
  · rw [hq.record, recordOf_takeRecord, if_neg hk]
  · rw [hq.slot, takeRecord, hr]
    simp only [hi]
    rfl

/-- R101: an ACTIVE record that is observed absent is RESTORING, under the profile's terms. -/
theorem recordOf_enterRestoring {s : State} {key : Nat} {r : Record} (hr : recordOf s key = some r) (hh : isHeld s key = false) :
    (recordOf (enterRestoring key s) key).map Record.unmarked = some { enterState .restoring (now s) r with
      terms := profileTerms s key, escalated := r.escalatedUnder (profileTerms s key), waiting := none } := by
  have hm : recordOf (modRecord key (enterState .restoring (now s)) s) key = some (enterState .restoring (now s) r) := by
    rw [recordOf_modRecord_self, hr]; rfl
  exact recordOf_takeTerms_standing hm hh (.inr rfl)

/-! ## A present observation -/

/-- R102: a RESTORING record that is observed present is ACTIVE, under the profile's terms. -/
theorem recordOf_returnToActive {s : State} {key : Nat} {r : Record} (hr : recordOf s key = some r) (hh : isHeld s key = false) (w : Nat) :
    (recordOf (returnToActive key w s) key).map Record.unmarked = some { enterState .active (now s) r with
      evidence := r.gained w, terms := profileTerms s key, escalated := r.escalatedUnder (profileTerms s key), waiting := none } := by
  have hm : recordOf (modRecord key (fun r => addEvidence w (enterState .active (now s) r)) s) key =
      some { enterState .active (now s) r with evidence := r.gained w } := by
    rw [recordOf_modRecord_self, hr, Option.map_some, addEvidence_eq]; rfl
  exact recordOf_takeTerms_standing hm hh (.inl rfl)

/-- R105: a record that returns to QUALIFYING at a second. -/
def Record.requalified (t : Seconds) (w : Nat) (r : Record) : Record :=
  restartWindow w { enterState .qualifying t r with recurrence := min 255 (r.recurrence + 1) }

theorem requalified_time {r : Record} {n : Seconds} (h : r.terms.confirm = .time n) (t : Seconds) (w : Nat) :
    r.requalified t w = { enterState .qualifying t r with recurrence := min 255 (r.recurrence + 1) } := by
  simp only [Record.requalified, restartWindow, enterState, h]

theorem requalified_count {r : Record} {n : Nat} {k : Seconds} (h : r.terms.confirm = .count n k) (t : Seconds) (w : Nat) :
    r.requalified t w = { enterState .qualifying t r with
      recurrence := min 255 (r.recurrence + 1), evidence := w, windowLeft := some k } := by
  simp only [Record.requalified, restartWindow, enterState, h]

/-- R105: the record has returned to QUALIFYING and left the queue; its evidence has still to be looked at. -/
def recurred (key w : Nat) (s : State) : State :=
  queueAction [.record key] (modRecord key (Record.requalified (now s) w) (adoptTerms key s))

theorem recurred_frame (key w : Nat) (s : State) : TablesFrame s (recurred key w s) :=
  (adoptTerms_frame key s).trans ((modRecord_frame key _ _).toTablesFrame.trans (queueAction_frame _ _).tables)

section
variable {s : State} {key : Nat} {r : Record} (hr : recordOf s key = some r)
include hr

theorem recur_eq (hs : r.state = .restored) (w : Nat) : recur key w s = confirmIfFull key (recurred key w s) := by
  simp only [recur, takeTerms_restored hr hs]
  rfl

theorem recordOf_recurred (w : Nat) : ∃ q, recordOf (recurred key w s) key = some q ∧
    q.unmarked = (Record.requalified (now s) w { r with terms := profileTerms s key }).unmarked := by
  refine (queueAction_frame _ _).record_some ?_
  rw [recordOf_modRecord_self, recordOf_adoptTerms hr]; rfl

/-- R105: a recurrence whose evidence is not full leaves the record QUALIFYING. -/
theorem recordOf_recur_waits (hs : r.state = .restored) (w : Nat)
    (hf : evidenceFull (Record.requalified (now s) w { r with terms := profileTerms s key }) = false) :
    (recordOf (recur key w s) key).map Record.unmarked =
      some (Record.requalified (now s) w { r with terms := profileTerms s key }).unmarked := by
  obtain ⟨q, hq, hu⟩ := recordOf_recurred hr w
  rw [recur_eq hr hs, confirmIfFull_waits hq ((congrArg evidenceFull hu).trans hf), hq, Option.map_some, hu]

/-- R105: a record under a confirm term waits for it. -/
theorem recordOf_recur_time (hs : r.state = .restored) (w : Nat) {n : Seconds} (hc : (profileTerms s key).confirm = .time n) :
    (recordOf (recur key w s) key).map Record.unmarked = some { enterState .qualifying (now s) r with
      recurrence := min 255 (r.recurrence + 1), terms := profileTerms s key, waiting := none } := by
  have hreq := requalified_time (r := { r with terms := profileTerms s key }) hc (now s) w
  rw [recordOf_recur_waits hr hs w (by rw [hreq]; exact evidenceFull_time hc), hreq]
  rfl

section
variable (hs : r.state = .restored) {w n : Nat} {k : Seconds} (hc : (profileTerms s key).confirm = .count n k)
include hs hc

/-- R98, R105: a COUNT record's evidence and window start again, and it waits while the weight is short of the count. -/
theorem recordOf_recur_count (hw : w < n) : (recordOf (recur key w s) key).map Record.unmarked = some { enterState .qualifying (now s) r with
    recurrence := min 255 (r.recurrence + 1), terms := profileTerms s key, evidence := w, windowLeft := some k, waiting := none } := by
  have hreq := requalified_count (r := { r with terms := profileTerms s key }) hc (now s) w
  have hshort : ∀ m j, (profileTerms s key).confirm = .count m j → w < m := fun m j hm => by cases hc.symm.trans hm; exact hw
  rw [recordOf_recur_waits hr hs w (by rw [hreq]; exact evidenceFull_short hshort), hreq]
  rfl

/-- R98, R105: a weight that reaches the count confirms the record at once. -/
theorem recordOf_recur_confirms (hw : n ≤ w) : ∃ q, recordOf (recur key w s) key = some q ∧
    Confirmed (now s) (quality s) (profileTerms s key) { enterState .qualifying (now s) r with
      recurrence := min 255 (r.recurrence + 1), terms := profileTerms s key, evidence := w, windowLeft := some k } q := by
  have hreq := requalified_count (r := { r with terms := profileTerms s key }) hc (now s) w
  obtain ⟨q, hq, hu⟩ := recordOf_recurred hr w
  rw [hreq] at hu
  have hfull : evidenceFull q = true := (congrArg evidenceFull hu).trans ((evidenceFull_iff _).mpr ⟨n, k, hc, hw⟩)
  obtain ⟨p, hp, hv⟩ := recordOf_confirmRecord_fields hq hu
  have hf := recurred_frame key w s
  rw [hf.now, hf.quality, hf.profileTerms] at hv
  refine ⟨p, ?_, hv⟩
  rw [recur_eq hr hs, confirmIfFull_confirms hq (congrArg Record.state hu) hfull, hp]

end

end

section
variable {s : State} {key : Nat} {r : Record} (hr : recordOf s key = some r)
include hr

theorem recordOf_addEvidence (w : Nat) : recordOf (modRecord key (addEvidence w) s) key = some { r with evidence := r.gained w } := by
  rw [recordOf_modRecord_self, hr, Option.map_some, addEvidence_eq]

end

end Sys2Proof.Machine

namespace Sys2Proof.Proofs

open Sys2Proof.Machine

/-- Settles O33. An observation that is not held creates a record, or sets the observed field of the one there is and does what its state says. -/
theorem observationsMoveRecords : Obligations.ObservationsMoveRecords := by
  refine fun s a w c present => ⟨fun hh => observe_held hh present w, fun hh => ⟨fun hr => observe_absent_unrecorded hr w,
    fun hr hfull => ?full, fun hr hroom => ?created, fun r hr => ?moved⟩⟩
  case full =>
    rw [observe_unrecorded hh hr, createRecord_full _ w hfull]
    rfl
  case created =>
    intro new created
    have hnew : profileTerms s (recordKey a c) = new := profileTerms_recordKey s a c
    have hmade := recordOf_recordMade_self (recordKey a c) w s
    have hcount {n : Nat} {k : Seconds} (hn : new.confirm = .count n k) :
        newRecord (now s) (profileTerms s (recordKey a c)) w = created w (some k) := by simp only [newRecord, hnew, hn, created]
    rw [observe_unrecorded hh hr, createRecord_room _ w hroom]
    refine ⟨_, rfl, fun n hn => ?_, fun n k hn => ⟨fun hw => ?_, fun hw => ?_⟩⟩
    · have htime : newRecord (now s) (profileTerms s (recordKey a c)) w = created 0 none := by simp only [newRecord, hnew, hn, created]
      rw [htime] at hmade
      rw [confirmIfFull_waits hmade (evidenceFull_time hn)]
      exact ⟨rfl, hmade, fun k hk => recordOf_recordMade_ne _ w s hk⟩
    · rw [hcount hn] at hmade
      rw [confirmIfFull_waits hmade (evidenceFull_short fun m j hm => by cases hn.symm.trans hm; exact hw)]
      exact ⟨rfl, hmade, fun k hk => recordOf_recordMade_ne _ w s hk⟩
    · rw [hcount hn] at hmade
      rw [confirmIfFull_confirms hmade rfl ((evidenceFull_iff _).mpr ⟨n, k, hn, hw⟩)]
      obtain ⟨q, hq, hv⟩ := recordOf_confirmRecord_fields hmade rfl
      exact ⟨((recordMade_frame _ w s).trans (confirmRecord_frame _ _)).eq, q, hq, hv.state, hv.observed, hv.timer, hv.created, hv.confirmed,
        hv.evidence, hv.windowLeft, hv.terms.trans hnew, hv.recurrence, hv.trail⟩
  case moved =>
    intro new evidence escalated
    have hnew : profileTerms s (recordKey a c) = new := profileTerms_recordKey s a c
    have hevidence : evidence = r.gained w := by
      cases hc : r.terms.confirm <;> simp only [evidence, Record.gained, hc]
    have hescalated : escalated = r.escalatedUnder new := rfl
    have hseen := recordOf_setObserved hr present
    have hunheld : isHeld (setObserved (recordKey a c) present s) (recordKey a c) = false := by
      show isHeld s (recordKey a c) = false
      simp [isHeld_recordKey, hh]
    rw [hevidence, hescalated, ← hnew, observe_recorded hh hr]
    refine ⟨_, rfl, ((setObserved_frame _ present s).trans (observeRecord_frame _ w present r _)).eq, ?vanishes, ?appears⟩
    case vanishes =>
      rintro rfl
      refine ⟨fun hs hi ⟨n, hn⟩ => ?_, fun hs => ?_, fun hs => ?_⟩
      · obtain ⟨hothers, hslots⟩ := removeRecord_single hseen hi
        rw [observeRecord_transient _ w _ hs hn]
        exact ⟨recordOf_removeRecord _ _, fun k hk => (hothers k hk).trans (by rw [recordOf_setObserved_ne hk]), hslots⟩
      · rw [observeRecord_absent _ w _ hs]
        exact ⟨rfl, hseen⟩
      · rw [observeRecord_absent_active _ w _ hs, recordOf_enterRestoring hseen hunheld]
        rfl
    case appears =>
      rintro rfl
      have hweighed := recordOf_addEvidence hseen w
      refine ⟨fun hs hshort => ?_, fun hs ⟨n, k, hn, hle⟩ => ?_, fun hs => ?_, fun hs => ?_,
        fun hs => ⟨fun n hn => ?_, fun n k hn hw => ?_, fun n k hn hw => ?_⟩⟩
      · rw [observeRecord_present_qualifying _ w _ hs, confirmIfFull_waits hweighed (evidenceFull_short hshort)]
        exact ⟨rfl, hweighed⟩
      · rw [observeRecord_present_qualifying _ w _ hs, confirmIfFull_confirms hweighed hs ((evidenceFull_iff _).mpr ⟨n, k, hn, hle⟩)]
        obtain ⟨q, hq, hv⟩ := recordOf_confirmRecord_fields hweighed rfl
        exact ⟨q, hq, hv.state, hv.timer, hv.confirmed, hv.evidence, hv.windowLeft, hv.escTimer, hv.escalated, hv.terms⟩
      · rw [observeRecord_present_active _ w _ hs]
        exact ⟨rfl, hweighed⟩
      · rw [observeRecord_present_restoring _ w _ hs, recordOf_returnToActive hseen hunheld]
        rfl
      · rw [observeRecord_present_restored _ w _ hs, recordOf_recur_time hseen hs w hn]
        rfl
      · rw [observeRecord_present_restored _ w _ hs, recordOf_recur_count hseen hs hn hw]
        rfl
      · rw [observeRecord_present_restored _ w _ hs]
        obtain ⟨q, hq, hv⟩ := recordOf_recur_confirms hseen hs hn hw
        exact ⟨q, hq, hv.state, hv.observed, hv.timer, hv.confirmed, hv.evidence, hv.windowLeft, hv.terms, hv.recurrence, hv.trail⟩

/-- Settles O8. The tick at the confirm term confirms the record, any other unheld tick counts, and a present observation of a record under a confirm
term has no evidence to add. -/
theorem confirmTermConfirmsRecord : Obligations.ConfirmTermConfirmsRecord := by
  refine ⟨fun s a c r n h hs hn ht => ?_, fun s key r n hr hs hn => ⟨recordTickDefault_held hr, fun hh ht => ?_⟩,
    fun s a w c r n hr hs hn hh => ?_⟩
  · have hx : confirmsNext r = true := (confirmsNext_iff r).mpr ⟨hs, n, hn, ht⟩
    have hp := h.recordEvent (p := Ending.confirms) hx (by simp [endingOf, Ending.any, hx]) defaultEscalateFirst
    rw [recordTick_confirms h.record h.unheld _ hx] at hp
    obtain ⟨q, hq, hv⟩ := recordOf_confirmRecord_fields h.record rfl
    exact ⟨_, q, rfl, hp.record.trans hq, hv.state, hv.timer, hv.confirmed, hv.restored, hv.escalated, hv.escTimer, hv.windowLeft, hv.quality,
      hv.terms.trans (profileTerms_recordKey s a c), hv.observed, hv.recurrence, hv.created, hv.evidence, hv.lampsOut⟩
  · have hc : confirmsNext r = false := by simp [confirmsNext, hn, ht]
    have hx : expiresNext r = false := by simp [expiresNext, hn]
    refine ⟨_, rfl, ?_⟩
    rw [recordTickDefault_counts hr hh (endingOf_qualifying hs hc hx)]
    refine ⟨rfl, ?_, fun k hk => recordOf_modRecord_ne _ _ hk⟩
    rw [recordOf_modRecord_self, hr]
    simp [countTick, hs, hn]
  · have hweighed := recordOf_addEvidence (recordOf_setObserved hr true) w
    have hgained : Record.gained w { r with observed := true } = r.evidence := by simp only [Record.gained, hn]
    rw [hgained] at hweighed
    refine ⟨_, rfl, ?_⟩
    rw [observe_recorded hh hr, observeRecord_present_qualifying _ w _ hs, confirmIfFull_waits hweighed (evidenceFull_time hn)]
    exact ⟨rfl, hweighed, fun k hk => (recordOf_modRecord_ne _ _ hk).trans (recordOf_setObserved_ne hk _ _)⟩

end Sys2Proof.Proofs
end

section
/-! PROOF. The tick at clear_time (R102 to R104, R109, R122, R124, R130): what becomes of the record, in either order of escalation and clearing, and
what its slot makes of a member that goes. -/

namespace Sys2Proof.Machine

/-! ## A slot that loses a member (R122) -/

/-- R122, R130: slot n after the removal of its member at a key, at a second; `wait` is the release_wait of its feeder's supply. -/
def Slot.memberLost (n key : Nat) (wait t : Seconds) (v : Slot) : Slot :=
  if slotType n = .feeder ∧ v.state = .opened ∧ v.root = some key then
    { v with members := v.members - 1, state := .releasing, release := wait, root := none }
  else if slotType n = .area ∧ v.state = .opened ∧ v.absorbing = false ∧ v.members ≤ 1 then
    { v with members := v.members - 1, state := .restored, restoredAt := some t }
  else { v with members := v.members - 1 }

theorem memberGone_eq (n key : Nat) (s : State) :
    memberGone n key s = modSlot n (Slot.memberLost n key (releaseWait s (slotCause n)) (now s)) s := by
  unfold memberGone modSlot Slot.memberLost
  cases slotType n with
  | outstation => simp
  | feeder => simp [apply_ite (setSlot n · s)]
  | area => simp [apply_ite (setSlot n · s)]

section
variable {n key : Nat} {wait t : Seconds} {v : Slot}

/-- R130: the root of an OPEN feeder slot goes. -/
theorem memberLost_root (h : slotType n = .feeder ∧ v.state = .opened ∧ v.root = some key) : v.memberLost n key wait t =
    { v with members := v.members - 1, state := .releasing, release := wait, root := none } := if_pos h

/-- R122: the last member of an OPEN area slot that does not absorb goes. -/
theorem memberLost_last (hn : ¬ (slotType n = .feeder ∧ v.state = .opened ∧ v.root = some key))
    (h : slotType n = .area ∧ v.state = .opened ∧ v.absorbing = false ∧ v.members ≤ 1) : v.memberLost n key wait t =
    { v with members := v.members - 1, state := .restored, restoredAt := some t } := by
  rw [Slot.memberLost, if_neg hn, if_pos h]

theorem memberLost_other (hn : ¬ (slotType n = .feeder ∧ v.state = .opened ∧ v.root = some key))
    (h : ¬ (slotType n = .area ∧ v.state = .opened ∧ v.absorbing = false ∧ v.members ≤ 1)) : v.memberLost n key wait t =
    { v with members := v.members - 1 } := by
  rw [Slot.memberLost, if_neg hn, if_neg h]

/-- A slot's waiting mark is nothing to the loss of a member. -/
theorem memberLost_unmarked : (v.memberLost n key wait t).unmarked = v.unmarked.memberLost n key wait t := by
  rw [Slot.memberLost, apply_ite Slot.unmarked, apply_ite Slot.unmarked]
  rfl

end

/-- R108, R122: the slot of a record that is removed loses a member, and no other slot changes. -/
theorem slotOf_takeRecord {s : State} {key : Nat} {r : Record} (hr : recordOf s key = some r) (n : Nat) : slotOf (takeRecord key s) n =
    if r.incident = some n then (slotOf s n).memberLost n key (releaseWait s (slotCause n)) (now s) else slotOf s n := by
  simp only [takeRecord, hr]
  cases hi : r.incident with
  | none => rfl
  | some m =>
    dsimp only
    rw [memberGone_eq]
    by_cases hm : n = m
    · subst hm
      rw [slotOf_modSlot_self, if_pos rfl]
      rfl
    · rw [slotOf_modSlot_ne _ _ hm, if_neg (fun h => hm (Option.some.inj h).symm)]
      rfl

/-- R5, R130: the release_wait of a feeder that one defined CABINET supplies. -/
theorem releaseWait_supplied {s : State} {f : Nat} {e : Nat × Asset} {p : Profile} (he : e ∈ s.directory.assets)
    (hk : e.2.settings.kind = .cabinet) (hf : e.2.settings.feeder = f)
    (hone : ∀ x ∈ s.directory.assets, x.2.settings.kind = .cabinet → x.2.settings.feeder = f → x = e)
    (hp : s.directory.profiles[e.2.settings.profile]? = some p) : releaseWait s f = p.releaseWait := by
  have hs : supplier s f = some e := by
    unfold supplier
    cases hfind : s.directory.assets.find? (fun e => decide (e.2.settings.kind = .cabinet) && decide (e.2.settings.feeder = f)) with
    | none => exact absurd (by simp [hk, hf]) (List.find?_eq_none.mp hfind e he)
    | some x =>
      have hx := List.find?_some hfind
      simp only [Bool.and_eq_true, decide_eq_true_eq] at hx
      rw [hone x (List.mem_of_find?_eq_some hfind) hx.1 hx.2]
  simp [releaseWait, hs, profileOf, hp]

theorem TablesFrame.releaseWait {s t : State} (h : TablesFrame s t) (f : Nat) : Machine.releaseWait t f = Machine.releaseWait s f := by
  simp only [Machine.releaseWait, supplier, profileOf, h.directory]

/-! ## Slots under an escalation test -/

theorem escalationTest_slot (key : Nat) (s : State) (n : Nat) : (slotOf (escalationTest key s) n).unmarked = (slotOf s n).unmarked := by
  unfold escalationTest
  split
  · rfl
  · split
    · exact (queueAction_frame _ _).slot n
    · rfl

theorem restoredState_slot (key : Nat) (s : State) (n : Nat) : (slotOf (restoredState key s) n).unmarked = (slotOf s n).unmarked :=
  escalationTest_slot key (adoptTerms key s) n

/-! ## The entry to RESTORED (R103, R104, R124) -/

/-- R104, R124: under its new terms the record is removed on its entry to RESTORED: it closes itself, or it is a member of a feeder or area slot. -/
def Departs (new : Terms) (r : Record) : Prop :=
  (r.seen = false ∧ new.autoClose = true) ∨ ∃ n, r.incident = some n ∧ slotType n ≠ .outstation

/-- R103: the fields of a record that has entered RESTORED, at a second and under new terms. -/
structure Restored (t : Seconds) (new : Terms) (r q : Record) : Prop where
  state : q.state = .restored
  timer : q.timer = 0
  restored : q.restored = some t
  seen : q.seen = r.seen
  incident : q.incident = r.incident
  confirmed : q.confirmed = r.confirmed
  recurrence : q.recurrence = r.recurrence
  terms : q.terms = new

theorem restored_of_unmarked {t : Seconds} {new : Terms} {r p q : Record} (h : Restored t new r p) (hu : q.unmarked = p.unmarked) :
    Restored t new r q :=
  ⟨(congrArg Record.state hu).trans h.state, (congrArg Record.timer hu).trans h.timer, (congrArg Record.restored hu).trans h.restored,
    (congrArg Record.seen hu).trans h.seen, (congrArg Record.incident hu).trans h.incident, (congrArg Record.confirmed hu).trans h.confirmed,
    (congrArg Record.recurrence hu).trans h.recurrence, (congrArg Record.terms hu).trans h.terms⟩

/-- What a RESTORING record at its clear time comes to: it is gone and its slot has lost a member, or it is RESTORED; no other slot has changed. -/
structure Cleared (s : State) (key : Nat) (r : Record) (t : State) : Prop where
  removed : Departs (profileTerms s key) r → recordOf t key = none
  stays : ¬ Departs (profileTerms s key) r → ∃ q, recordOf t key = some q ∧ Restored (now s) (profileTerms s key) r q
  lost : ∀ n, r.incident = some n → Departs (profileTerms s key) r →
    (slotOf t n).unmarked = (slotOf s n).unmarked.memberLost n key (releaseWait s (slotCause n)) (now s)
  kept : ∀ n, ¬ (r.incident = some n ∧ Departs (profileTerms s key) r) → (slotOf t n).unmarked = (slotOf s n).unmarked

section
variable {s : State} {key : Nat} {r : Record} (hr : recordOf s key = some r)
include hr

theorem recordOf_restoredState_fields :
    ∃ q, recordOf (restoredState key s) key = some q ∧ Restored (now s) (profileTerms s key) r q := by
  obtain ⟨m, e, hm, hu⟩ := recordOf_takeTerms hr
  refine ⟨{ enterState .restored (now s) m with restored := some (now s) }, ?_, rfl, rfl, rfl, (congrArg Record.seen hu :),
    (congrArg Record.incident hu :), (congrArg Record.confirmed hu :), (congrArg Record.recurrence hu :), (congrArg Record.terms hu :)⟩
  rw [restoredState, recordOf_modRecord_self, hm, (takeTerms_frame key s).now]; rfl

/-- R104, R124: a record that departs is taken out of the tables, and the queue is told. -/
theorem enterRestored_departs (h : Departs (profileTerms s key) r) : MarkFrame (takeRecord key (restoredState key s)) (enterRestored key s) := by
  obtain ⟨q, hq, hf⟩ := recordOf_restoredState_fields hr
  rw [enterRestored_eq hq]
  split
  · exact queueAction_frame _ _
  · rename_i hc
    have hm : memberRestored key (restoredState key s) = takeRecord key (restoredState key s) := by
      rcases h with ⟨h1, h2⟩ | ⟨n, hn, ht⟩
      · exact absurd (by simp [closesItself, hf.terms, hf.seen, h1, h2]) hc
      · simp [memberRestored, hq, hf.incident, hn, ht]
    rw [hm]
    exact queueAction_frame _ _

/-- R103: a record that does not depart stays in RESTORED, and the queue is told. -/
theorem enterRestored_remains (h : ¬ Departs (profileTerms s key) r) : MarkFrame (restoredState key s) (enterRestored key s) := by
  obtain ⟨q, hq, hf⟩ := recordOf_restoredState_fields hr
  obtain ⟨hopen, hmember⟩ := not_or.mp h
  have hclose : ¬ closesItself q = true := by simpa [closesItself, hf.terms, hf.seen] using hopen
  have hm : memberRestored key (restoredState key s) = restoredState key s := by
    cases hi : r.incident with
    | none => simp [memberRestored, hq, hf.incident, hi]
    | some n =>
      have ht : slotType n = .outstation := by
        by_contra ht
        exact hmember ⟨n, hi, ht⟩
      simp [memberRestored, hq, hf.incident, hi, ht]
  rw [enterRestored_eq hq, if_neg hclose, hm]
  exact queueAction_frame _ _

theorem enterRestored_cleared : Cleared s key r (enterRestored key s) := by
  obtain ⟨q, hq, hf⟩ := recordOf_restoredState_fields hr
  have hframe := restoredState_frame key s
  by_cases hd : Departs (profileTerms s key) r
  · have hmarks := enterRestored_departs hr hd
    have hslot (n : Nat) := (hmarks.slot n).trans (congrArg Slot.unmarked (slotOf_takeRecord hq n))
    rw [hf.incident] at hslot
    refine ⟨fun _ => hmarks.record_none (by rw [recordOf_takeRecord, if_pos rfl]), fun h => absurd hd h, fun n hn _ => ?_, fun n hn => ?_⟩
    · rw [hslot, if_pos hn, memberLost_unmarked, restoredState_slot, hframe.releaseWait, hframe.now]
    · rw [hslot, if_neg fun hi => hn ⟨hi, hd⟩, restoredState_slot]
  · have hmarks := enterRestored_remains hr hd
    obtain ⟨p, hp, hu⟩ := hmarks.record_some hq
    exact ⟨fun h => absurd h hd, fun _ => ⟨p, hp, restored_of_unmarked hf hu⟩, fun _ _ h => absurd h hd,
      fun n _ => (hmarks.slot n).trans (restoredState_slot key s n)⟩

end

/-! ## The tick at clear_time, in either order (R102, R109) -/

/-- R109: the rise of an escalation timer. -/
def riseEscalation (r : Record) : Record := { r with escTimer := min 65535 (r.escTimer + 1) }

/-- A change of the record that comes to RESTORED, and of nothing else, leaves what Cleared says when it keeps the fields of that state. -/
theorem Cleared.after {s t u : State} {key : Nat} {r : Record} (h : Cleared s key r t) (hslots : ∀ n, slotOf u n = slotOf t n)
    {f : Record → Record} (hrecord : recordOf u key = (recordOf t key).map f)
    (hf : ∀ q, Restored (now s) (profileTerms s key) r q → Restored (now s) (profileTerms s key) r (f q)) : Cleared s key r u := by
  refine ⟨fun hd => by rw [hrecord, h.removed hd]; rfl, fun hd => ?_, fun n hn hd => by rw [hslots, h.lost n hn hd],
    fun n hn => by rw [hslots, h.kept n hn]⟩
  obtain ⟨q, hq, hfields⟩ := h.stays hd
  exact ⟨f q, by rw [hrecord, hq]; rfl, hf q hfields⟩

/-- R109: an escalation before the entry to RESTORED changes nothing that the entry looks at. -/
theorem Cleared.before {s u t : State} {key : Nat} {r q : Record} (hframe : TablesFrame s u)
    (hslots : ∀ n, (slotOf u n).unmarked = (slotOf s n).unmarked) (hseen : q.seen = r.seen) (hincident : q.incident = r.incident)
    (hconfirmed : q.confirmed = r.confirmed) (hrecurrence : q.recurrence = r.recurrence) (h : Cleared u key q t) : Cleared s key r t := by
  have hterms := hframe.profileTerms key
  have hdeparts : Departs (profileTerms u key) q ↔ Departs (profileTerms s key) r := by rw [Departs, Departs, hseen, hincident, hterms]
  refine ⟨fun hd => h.removed (hdeparts.mpr hd), fun hd => ?_, fun n hn hd => ?_, fun n hn => ?_⟩
  · obtain ⟨p, hp, hf⟩ := h.stays (mt hdeparts.mp hd)
    exact ⟨p, hp, hf.state, hf.timer, hf.restored.trans (by rw [hframe.now]), hf.seen.trans hseen, hf.incident.trans hincident,
      hf.confirmed.trans hconfirmed, hf.recurrence.trans hrecurrence, hf.terms.trans hterms⟩
  · rw [h.lost n (hincident.trans hn) (hdeparts.mpr hd), hslots, hframe.releaseWait, hframe.now]
  · rw [h.kept n (by rwa [hincident, hdeparts]), hslots]

theorem riseEscTimer_keeps (r : Record) : (riseEscTimer r).seen = r.seen ∧ (riseEscTimer r).incident = r.incident ∧
    (riseEscTimer r).confirmed = r.confirmed ∧ (riseEscTimer r).recurrence = r.recurrence := by
  unfold riseEscTimer
  split <;> exact ⟨rfl, rfl, rfl, rfl⟩

section
variable {s : State} {key : Nat} {r : Record} (hr : recordOf s key = some r)
include hr

theorem enterRestored_escalated : Cleared s key r (enterRestored key (escalationTick key s)) := by
  have hrise : recordOf (modRecord key riseEscTimer s) key = some (riseEscTimer r) := by rw [recordOf_modRecord_self, hr]; rfl
  obtain ⟨q, hq, hu⟩ := recordOf_escalationTest hrise
  obtain ⟨hseen, hincident, hconfirmed, hrecurrence⟩ := riseEscTimer_keeps r
  exact (enterRestored_cleared hq).before (q := q) ((modRecord_frame key _ s).toTablesFrame.trans (escalationTest_frame key _))
    (escalationTest_slot key _) ((congrArg Record.seen hu).trans hseen) ((congrArg Record.incident hu).trans hincident)
    ((congrArg Record.confirmed hu).trans hconfirmed) ((congrArg Record.recurrence hu).trans hrecurrence)

/-- R102 to R104, R109: whichever comes first, escalation or clearing. -/
theorem clearingTick_cleared (first : Bool) : Cleared s key r (clearingTick first key r s) := by
  unfold clearingTick
  split
  · exact enterRestored_escalated hr
  · dsimp only
    split
    · exact (enterRestored_cleared hr).after (fun _ => rfl) (f := riseEscalation) (recordOf_modRecord_self key _ _)
        fun q h => ⟨h.state, h.timer, h.restored, h.seen, h.incident, h.confirmed, h.recurrence, h.terms⟩
    · exact enterRestored_cleared hr

end

end Sys2Proof.Machine

namespace Sys2Proof.Proofs

open Sys2Proof.Machine

/-- Settles O11. The record's tick clears it in either order, and the qualifier's way on leaves record and slots so. -/
theorem clearTimeRestoresRecord : Obligations.ClearTimeRestoresRecord := by
  intro s a c r h hs ht
  have hx : clearsNext r = true := (clearsNext_iff r).mpr ⟨hs, ht⟩
  have hp := h.recordEvent (p := Ending.clears) hx (by simp [endingOf, Ending.any, hx]) clearingOrder
  rw [recordTick_clears h.record h.unheld _ hx] at hp
  have hcleared : Cleared s (recordKey a c) r _ := (clearingTick_cleared h.record (clearingOrder r)).after hp.slotOf (f := id)
    (hp.record.trans (congrFun Option.map_id _).symm) fun _ => id
  have hterms := profileTerms_recordKey s a c
  have hdeparts : Departs (profileTerms s (recordKey a c)) r ↔
      (r.seen = false ∧ (assetProfile s a).autoClose = true) ∨ (∃ n, r.incident = some n ∧ slotType n ≠ .outstation) := by
    rw [hterms]; rfl
  refine ⟨_, rfl, ?_, fun n hn => hcleared.kept n fun hd => hn hd.1, fun n hn => ?_⟩
  · split
    · rename_i hd
      exact hcleared.removed (hdeparts.mpr hd)
    · rename_i hd
      obtain ⟨q, hq, hf⟩ := hcleared.stays (mt hdeparts.mp hd)
      exact ⟨q, hq, hf.state, hf.timer, hf.restored, hf.seen, hf.incident, hf.confirmed, hf.recurrence, hf.terms.trans hterms⟩
  · intro v w
    split
    · rename_i hstays
      refine hcleared.kept n fun hd => ?_
      rcases hdeparts.mp hd.2 with hclose | ⟨m, hm, hmt⟩
      · exact hstays.1 hclose
      · cases hn.symm.trans hm
        exact hmt hstays.2
    · rename_i hgoes
      have hd : Departs (profileTerms s (recordKey a c)) r := hdeparts.mpr <| by
        rcases not_and_or.mp hgoes with hclose | hmember
        · exact .inl (not_not.mp hclose)
        · exact .inr ⟨n, hn, hmember⟩
      have hw : w = v.unmarked.memberLost n (recordKey a c) (releaseWait s (slotCause n)) (now s) := hcleared.lost n hn hd
      split
      · rename_i hroot
        have hreleasing := hw.trans (memberLost_root hroot)
        have hwait : w.release = releaseWait s (slotCause n) := congrArg Slot.release hreleasing
        exact ⟨by rw [hwait]; exact hreleasing, fun e he hk hf hone p hprofile => hwait.trans (releaseWait_supplied he hk hf hone hprofile)⟩
      · rename_i hroot
        split
        · rename_i hlast
          exact hw.trans (memberLost_last hroot hlast)
        · rename_i hlast
          exact hw.trans (memberLost_other hroot hlast)

end Sys2Proof.Proofs
end

section
/-! PROOF. What a tick that is offered leaves in each block (R19, R28, R38, R50, R94 to R96, R99, R102, R109, R131, R136, R183): the counts that it
lowers, the ends that stay due, and the counts of the records that it brings to no end. -/

namespace Sys2Proof.Machine

/-! ## A list of changes, each at its own place -/

/-- Where a fold changes one place at a step, each place of a list without repetitions is changed once. `P` is what the steps may rely on. -/
theorem foldl_read {α β : Type} [DecidableEq α] {P : State → Prop} {f : State → α → State} {read : State → α → β} {act : α → β → β}
    (keeps : ∀ s a, P s → P (f s a)) (self : ∀ s a, P s → read (f s a) a = act a (read s a))
    (other : ∀ s a b, b ≠ a → read (f s a) b = read s b) {l : List α} (hl : l.Nodup) {s : State} (hs : P s) (a : α) :
    read (l.foldl f s) a = if a ∈ l then act a (read s a) else read s a := by
  induction l generalizing s with
  | nil => rfl
  | cons b l ih =>
    obtain ⟨hb, hl⟩ := List.nodup_cons.mp hl
    rw [List.foldl_cons, ih hl (keeps s b hs)]
    by_cases ha : a = b
    · subst ha
      rw [if_neg hb, if_pos List.mem_cons_self, self s a hs]
    · simp only [other s b a ha, List.mem_cons, ha, false_or]

/-! ## The gate (R28) -/

/-- The gate takes a tick at once where that does not end settling. -/
def countGate (s : State) : State := if s.tick.gate then s else gateTick s

theorem countGate_frame (s : State) : countGate s = { s with gate := (countGate s).gate } := by
  unfold countGate gateTick
  split
  · rfl
  · split <;> rfl

/-- R28: a count above 1 falls, and settling goes on; else the gate waits or does not settle. -/
theorem countGate_gate {s : State} (h : s.tick.gate = (s.gate.settling && decide (s.gate.count ≤ 1))) : (countGate s).gate =
    if s.gate.settling = true ∧ 1 < s.gate.count then { s.gate with count := s.gate.count - 1 } else s.gate := by
  unfold countGate gateTick
  rw [h]
  cases hs : s.gate.settling with
  | false => simp
  | true =>
    by_cases hc : s.gate.count ≤ 1
    · simp [hc]
    · simp [hc, Nat.lt_of_not_le hc, hs]

/-! ## The feeder slots (R131, R132) -/

/-- R131: a RELEASING slot after a tick that does not bring its release timer to 0. -/
def Slot.releaseCounted (v : Slot) : Slot := if v.state = .releasing ∧ 1 < v.release then { v with release := v.release - 1 } else v

theorem feederSlot_inj {f g : Nat} (h : feederSlot g = feederSlot f) : g = f := Nat.add_left_cancel h

theorem countRelease_self (s : State) (f : Nat) :
    slotOf (countRelease s f) (feederSlot f) = (slotOf s (feederSlot f)).releaseCounted := by
  unfold countRelease Slot.releaseCounted
  split
  · exact slotOf_modSlot_self (feederSlot f) (fun v => { v with release := v.release - 1 }) s
  · rfl

theorem countRelease_ne {f n : Nat} (s : State) (h : n ≠ feederSlot f) : slotOf (countRelease s f) n = slotOf s n := by
  unfold countRelease
  split
  · exact slotOf_modSlot_ne (fun v => { v with release := v.release - 1 }) s h
  · rfl

theorem countRelease_frame (s : State) (f : Nat) : countRelease s f = { s with incidents := (countRelease s f).incidents } := by
  unfold countRelease
  split <;> rfl

theorem countReleases_frame (l : List Nat) (s : State) :
    l.foldl countRelease s = { s with incidents := (l.foldl countRelease s).incidents } :=
  foldl_closed (P := fun t => t = { s with incidents := t.incidents })
    (fun t f h => (countRelease_frame t f).trans (by rw [h])) l s rfl

theorem mem_feederNumbers {f : Nat} : f ∈ feederNumbers ↔ 1 ≤ f ∧ f ≤ 64 := by
  simp only [feederNumbers, List.mem_map, List.mem_range]
  constructor
  · rintro ⟨n, hn, rfl⟩; omega
  · rintro ⟨h1, h2⟩; exact ⟨f - 1, by omega, by omega⟩

theorem feederNumbers_nodup : feederNumbers.Nodup := List.nodup_range.map fun _ _ h => Nat.succ_injective h

theorem countReleases_slot {f : Nat} (h : f ∈ feederNumbers) (s : State) :
    slotOf (feederNumbers.foldl countRelease s) (feederSlot f) = (slotOf s (feederSlot f)).releaseCounted := by
  have hread := foldl_read (P := fun _ => True) (read := fun s f => slotOf s (feederSlot f)) (act := fun _ => Slot.releaseCounted)
    (fun _ _ _ => trivial) (fun s f _ => countRelease_self s f) (fun s f g hg => countRelease_ne s (mt feederSlot_inj hg))
    feederNumbers_nodup (s := s) trivial f
  rw [hread, if_pos h]

/-! ## The lines (R50) -/

/-- R50: a line after a tick that it takes at once: it is not STOPPED, and its sweep is not due. -/
def intervalCounted (due : List FieldLine) (l : FieldLine) (c : LineController) : LineController :=
  { c with interval := if c.state = .stopped ∨ l ∈ due then c.interval else c.interval - 1 }

theorem countLine_self (s : State) (l : FieldLine) : lineOf (countLine s l) l = intervalCounted s.tick.lines l (lineOf s l) := by
  unfold countLine countInterval intervalCounted
  by_cases hd : l ∈ s.tick.lines
  · simp [hd]
  · by_cases hs : (lineOf s l).state = .stopped
    · rw [if_neg hd, if_pos hs, if_pos (.inl hs)]
    · simp [hd, hs]

theorem countLine_ne {l m : FieldLine} (s : State) (h : m ≠ l) : lineOf (countLine s l) m = lineOf s m := by
  unfold countLine countInterval
  split
  · rfl
  · split
    · rfl
    · exact lineOf_modLine_ne _ s h

theorem countLine_frame (s : State) (l : FieldLine) : countLine s l = { s with lines := (countLine s l).lines } := by
  unfold countLine countInterval
  split
  · rfl
  · split <;> rfl

theorem countLines_frame (ls : List FieldLine) (s : State) : ls.foldl countLine s = { s with lines := (ls.foldl countLine s).lines } :=
  foldl_closed (P := fun t => t = { s with lines := t.lines }) (fun t l h => (countLine_frame t l).trans (by rw [h])) ls s rfl

theorem countLines_line (s : State) (l : FieldLine) :
    lineOf (fieldLines.foldl countLine s) l = intervalCounted s.tick.lines l (lineOf s l) := by
  have hread := foldl_read (P := fun t => t.tick = s.tick) (read := lineOf) (act := intervalCounted s.tick.lines)
    (fun t m h => by rw [countLine_frame]; exact h) (fun t m h => by rw [countLine_self, h]) (fun t m k hk => countLine_ne t hk)
    (l := fieldLines) (by decide) (s := s) rfl l
  rw [hread, if_pos (by cases l <;> decide)]

/-! ## The store (R183) -/

/-- The store takes a tick at once where that does not abandon the save. -/
def countSave (s : State) : State := if s.tick.save then s else saveTick s

theorem countSave_frame (s : State) : countSave s = { s with store := (countSave s).store, link := (countSave s).link } := by
  unfold countSave saveTick
  split
  · rfl
  · split
    · rfl
    · split <;> rfl

/-- R183: a save count above 1 falls; else the store waits. -/
theorem countSave_saving {s : State} {v : Saving} (hv : s.store.saving = some v) (h : s.tick.save = decide (v.count ≤ 1)) :
    (countSave s).store.saving = some (if v.count ≤ 1 then v else { v with count := v.count - 1 }) := by
  unfold countSave saveTick
  rw [h]
  by_cases hc : v.count ≤ 1
  · simp [hc, hv]
  · simp [hc, hv]

/-! ## The blocks at a tick -/

/-- The blocks take the tick one after the other; what the first two leave is known but for gate and incident slots. -/
theorem countBlocks_steps (s : State) : ∃ u,
    u = { s with gate := (countGate s).gate, incidents := u.incidents } ∧
    (∀ f ∈ feederNumbers, slotOf u (feederSlot f) = (slotOf s (feederSlot f)).releaseCounted) ∧
    countBlocks s = countSave (fieldLines.foldl countLine u) := by
  refine ⟨feederNumbers.foldl countRelease (countGate s), ?_, fun f hf => ?_, ?_⟩
  · rw [countReleases_frame, countGate_frame]
  · rw [countReleases_slot hf, countGate_frame]
    rfl
  · unfold countBlocks countSave countGate
    dsimp only

section
variable (s : State)

/-- A tick that the blocks take changes gate, lines, incident slots and store, and it may set a flag. -/
theorem countBlocks_frame : countBlocks s = { s with
    gate := (countBlocks s).gate, lines := (countBlocks s).lines, incidents := (countBlocks s).incidents, store := (countBlocks s).store
    link := (countBlocks s).link } := by
  obtain ⟨u, hu, -, h⟩ := countBlocks_steps s
  rw [h, countSave_frame, countLines_frame, hu]

theorem countBlocks_gate : (countBlocks s).gate = (countGate s).gate := by
  obtain ⟨u, hu, -, h⟩ := countBlocks_steps s
  rw [h, countSave_frame, countLines_frame, hu]

theorem countBlocks_slot {f : Nat} (hf : f ∈ feederNumbers) :
    slotOf (countBlocks s) (feederSlot f) = (slotOf s (feederSlot f)).releaseCounted := by
  obtain ⟨u, -, hslot, h⟩ := countBlocks_steps s
  rw [← hslot f hf, h, countSave_frame, countLines_frame]
  rfl

theorem countBlocks_line (l : FieldLine) : lineOf (countBlocks s) l = intervalCounted s.tick.lines l (lineOf s l) := by
  obtain ⟨u, hu, -, h⟩ := countBlocks_steps s
  have hsaved : lineOf (countBlocks s) l = lineOf (fieldLines.foldl countLine u) l := by
    rw [h, countSave_frame]
    cases l <;> rfl
  rw [hsaved, countLines_line, hu]
  cases l <;> rfl

theorem countBlocks_saving {v : Saving} (hv : s.store.saving = some v) (hs : s.tick.save = decide (v.count ≤ 1)) :
    (countBlocks s).store.saving = some (if v.count ≤ 1 then v else { v with count := v.count - 1 }) := by
  obtain ⟨u, hu, -, h⟩ := countBlocks_steps s
  have hbefore : fieldLines.foldl countLine u = { s with
      gate := (countGate s).gate, incidents := u.incidents, lines := (fieldLines.foldl countLine u).lines } := by
    rw [countLines_frame, hu]
  rw [h]
  exact countSave_saving (by rw [hbefore]; exact hv) (by rw [hbefore]; exact hs)

end

/-! ## The qualifier (R95) -/

/-- R94: whether a record is held depends on the directory, and on the gate's value and settling alone. -/
theorem isHeld_congr {s t : State} (hd : t.directory = s.directory) (hv : t.gate.value = s.gate.value)
    (hg : t.gate.settling = s.gate.settling) (key : Nat) : isHeld t key = isHeld s key := by
  have hgate : ∀ c, gateMatches t.gate c = gateMatches s.gate c := fun c => by simp only [gateMatches, hv, hg]
  have hsilent : ∀ a, assetSilent t a = assetSilent s a := fun a => by simp only [assetSilent, assetOf, stationOf, hd]
  have hheld : ∀ a c, heldBy t a c = heldBy s a c := fun a c => by simp only [heldBy, hgate, hsilent]
  simp only [isHeld, hheld]

/-- R94 to R96, R99, R102, R109: a record after a tick that brings it to no end. -/
def tickCounted (held : Bool) (r : Record) : Record := if held then r else countTick r

/-- R94, R95: a tick that brings a record to no end counts it, unless it is held, and leaves the others and what holds them. -/
theorem recordTickDefault_counted {s : State} {key : Nat} (h : recordEnds s key = false) (k : Nat) :
    recordOf (recordTickDefault s key) k = (if k = key then (recordOf s key).map (tickCounted (isHeld s key)) else recordOf s k) ∧
      isHeld (recordTickDefault s key) k = isHeld s k := by
  cases hr : recordOf s key with
  | none =>
    have hs : recordTickDefault s key = s := by simp only [recordTickDefault, recordTickBy, hr]
    rw [hs]
    refine ⟨?_, rfl⟩
    split
    · rename_i hk
      rw [hk, hr]; rfl
    · rfl
  | some r =>
    cases hh : isHeld s key with
    | true =>
      rw [recordTickDefault_held hr hh]
      refine ⟨?_, rfl⟩
      split
      · rename_i hk
        rw [hk, hr]; rfl
      · rfl
    | false =>
      have hend : (endingOf r).any = false := by simpa [recordEnds, hr, hh] using h
      rw [recordTickDefault_counts hr hh hend]
      refine ⟨?_, rfl⟩
      split
      · rename_i hk
        rw [hk, recordOf_modRecord_self, hr]; rfl
      · rename_i hk
        exact recordOf_modRecord_ne _ _ hk

/-- R95: where the tick brings no record of a list to an end, the qualifier's way counts each of them. -/
theorem qualifyUpTo_counted {keys : List Nat} (hk : keys.Nodup) {s : State} (h : ∀ key ∈ keys, recordEnds s key = false) (k : Nat) :
    recordOf (qualifyUpTo keys s) k = if k ∈ keys then (recordOf s k).map (tickCounted (isHeld s k)) else recordOf s k := by
  induction keys generalizing s with
  | nil => rfl
  | cons key keys ih =>
    obtain ⟨hkey, hk⟩ := List.nodup_cons.mp hk
    obtain ⟨hend, hends⟩ := List.forall_mem_cons.mp h
    have hstep := recordTickDefault_counted hend
    have hrest : ∀ j ∈ keys, recordEnds (recordTickDefault s key) j = false := fun j hj => by
      have hj' : j ≠ key := by rintro rfl; exact hkey hj
      simpa only [recordEnds, (hstep j).1, if_neg hj', (hstep j).2] using hends j hj
    simp only [qualifyUpTo, hend, Bool.false_eq_true, if_false]
    rw [ih hk hrest, (hstep k).1, (hstep k).2]
    by_cases hkk : k = key
    · subst hkk
      rw [if_neg hkey, if_pos rfl, if_pos List.mem_cons_self]
    · simp only [List.mem_cons, hkk, false_or, if_false]

/-- R95: a tick that brings no record to an end counts every record. -/
theorem qualifyOn_counted {s : State} (hw : Table.wf s.faults = true) (hq : s.tick.qualifier = some 0)
    (h : ∀ key, recordEnds s key = false) {key : Nat} {r : Record} (hr : recordOf s key = some r) :
    recordOf (qualifyOn s) key = some (tickCounted (isHeld s key) r) := by
  have hdue : dueKeys s = Table.keys s.faults := by simp [dueKeys, hq]
  have hmem : key ∈ Table.keys s.faults := List.mem_map_of_mem (f := Prod.fst) (Table.mem_of_find hr)
  have hnodup : (Table.keys s.faults).Nodup := ((Table.wf_iff _).mp hw).imp Nat.ne_of_lt
  simp only [qualifyOn, hq, hdue]
  rw [qualifyUpTo_counted hnodup (fun k _ => h k), if_pos hmem, hr]
  rfl

/-- R95, R109: the counts of an ACTIVE or RESTORING record. -/
theorem countTick_standing {r : Record} (h : r.state = .active ∨ r.state = .restoring) : countTick r = { r with
    timer := if r.state = .restoring then r.timer + 1 else r.timer
    escTimer := if r.seen = false ∧ r.incident = none then min 65535 (r.escTimer + 1) else r.escTimer } := by
  have hrise (q : Record) (hq : q.state = .active ∨ q.state = .restoring) : riseEscTimer q =
      { q with escTimer := if q.seen = false ∧ q.incident = none then min 65535 (q.escTimer + 1) else q.escTimer } := by
    unfold riseEscTimer
    by_cases hs : q.seen = false ∧ q.incident = none
    · rw [if_pos ((standing_iff q).mpr ⟨hq, hs⟩), if_pos hs]
    · rw [if_neg fun hn => hs ((standing_iff q).mp hn).2, if_neg hs]
  rcases h with h | h
  · have hc : countTick r = riseEscTimer r := by simp only [countTick, h]
    have hn : ¬ r.state = .restoring := by simp [h]
    rw [hc, hrise r (.inl h), if_neg hn]
  · have hc : countTick r = riseEscTimer { r with timer := r.timer + 1 } := by simp only [countTick, h]
    rw [hc, hrise { r with timer := r.timer + 1 } (.inr h), if_pos h]

/-! ## The offer (R19) -/

/-- What of a tick stays due of the blocks but the qualifier. -/
structure DueFrame (d e : TickDue) : Prop where
  gate : e.gate = d.gate
  rotation : e.rotation = d.rotation
  release : e.release = d.release
  lines : e.lines = d.lines
  save : e.save = d.save

/-- The qualifier's part of an offer changes records, and leaves what the other blocks have due. -/
structure QualifierFrame (s t : State) : Prop where
  frame : t = { s with faults := t.faults, tick := t.tick }
  due : DueFrame s.tick t.tick

theorem QualifierFrame.refl (s : State) : QualifierFrame s s := ⟨rfl, rfl, rfl, rfl, rfl, rfl⟩

theorem QualifierFrame.trans {s t u : State} (h : QualifierFrame s t) (k : QualifierFrame t u) : QualifierFrame s u :=
  ⟨by rw [k.frame, h.frame], k.due.gate.trans h.due.gate, k.due.rotation.trans h.due.rotation, k.due.release.trans h.due.release,
    k.due.lines.trans h.due.lines, k.due.save.trans h.due.save⟩

theorem qualifyOn_frame (s : State) : QualifierFrame s (qualifyOn s) := by
  unfold qualifyOn
  split
  · exact .refl s
  · rw [(qualifyUpTo_frame (dueKeys s) s).frame]
    exact ⟨rfl, rfl, rfl, rfl, rfl, rfl⟩

theorem clearIfDone_frame (s : State) : QualifierFrame s (clearIfDone s) := by
  unfold clearIfDone
  split
  · rename_i h
    refine ⟨rfl, ?_⟩
    rw [h]
    exact ⟨rfl, rfl, rfl, rfl, rfl⟩
  · exact .refl s

theorem offerQualifier_frame (s : State) : QualifierFrame s (offerQualifier s) := by
  unfold offerQualifier
  split
  · exact clearIfDone_frame s
  · exact (qualifyOn_frame s).trans (clearIfDone_frame _)

@[simp] theorem recordOf_clearIfDone (s : State) (key : Nat) : recordOf (clearIfDone s) key = recordOf s key := by
  unfold clearIfDone
  split <;> rfl

/-- The second that passes changes Timebase, lines and perhaps a flag. -/
theorem nextSecond_frame (s : State) :
    nextSecond s = { s with timebase := (nextSecond s).timebase, lines := (nextSecond s).lines, link := (nextSecond s).link } := by
  unfold nextSecond riseSecond
  rw [quietLines_frame, (completeSecond_frame s).frame]
  rfl

theorem now_nextSecond (s : State) : now (nextSecond s) = s.timebase.runSecond + 1 :=
  congrArg (· + 1) (now_quietLines_completeSecond s)

theorem lineOf_nextSecond (s : State) (l : FieldLine) : lineOf (nextSecond s) l = secondQuiet (lineOf s l) := by
  have hc : lineOf (completeSecond s) l = lineOf s l := by
    rw [(completeSecond_frame s).frame]
    cases l <;> rfl
  rw [← hc, ← lineOf_quietLines]
  cases l <;> rfl

theorem slotOf_of_incidents {s t : State} (h : t.incidents = s.incidents) (n : Nat) : slotOf t n = slotOf s n := by
  simp only [slotOf, h]

theorem lineOf_of_lines {s t : State} (h : t.lines = s.lines) (l : FieldLine) : lineOf t l = lineOf s l := by
  simp only [lineOf, h]

/-- What a tick has due, by the state before its second passes. -/
theorem dueOf_nextSecond_gate (q : Bool) (s : State) :
    (dueOf q (nextSecond s)).gate = (s.gate.settling && decide (s.gate.count ≤ 1)) := by
  simp only [dueOf]
  rw [nextSecond_frame]

theorem dueOf_nextSecond_rotation (q : Bool) (s : State) :
    (dueOf q (nextSecond s)).rotation = true ↔ (s.timebase.runSecond + 1) % 30 = 0 := by
  simp only [dueOf, now_nextSecond, decide_eq_true_eq]

theorem slotOf_nextSecond (s : State) (n : Nat) : slotOf (nextSecond s) n = slotOf s n := by
  rw [slotOf_of_incidents (s := s) (by rw [nextSecond_frame])]

theorem mem_dueOf_nextSecond_release (q : Bool) (s : State) (f : Nat) : f ∈ (dueOf q (nextSecond s)).release ↔
    f ∈ feederNumbers ∧ (slotOf s (feederSlot f)).state = .releasing ∧ (slotOf s (feederSlot f)).release ≤ 1 := by
  simp only [dueOf, expiringFeeders, List.mem_filter, slotOf_nextSecond, Bool.and_eq_true, decide_eq_true_eq]

theorem mem_dueOf_nextSecond_lines (q : Bool) (s : State) (l : FieldLine) :
    l ∈ (dueOf q (nextSecond s)).lines ↔ (lineOf s l).state = .resting ∧ (lineOf s l).interval ≤ 1 := by
  have hl : l ∈ fieldLines := by cases l <;> decide
  simp only [dueOf, sweepNext, List.mem_filter, hl, true_and, lineOf_nextSecond, secondQuiet, Bool.and_eq_true, decide_eq_true_eq]

theorem dueOf_nextSecond_save (q : Bool) {s : State} {v : Saving} (hv : s.store.saving = some v) :
    (dueOf q (nextSecond s)).save = decide (v.count ≤ 1) := by
  have hs : (nextSecond s).store.saving = some v := by rw [nextSecond_frame]; exact hv
  simp only [dueOf, hs]

/-- The tick is offered, and no block has taken it. -/
def offered (q : Bool) (s : State) : State := modTick (fun _ => dueOf q (nextSecond s)) (nextSecond s)

theorem offered_frame (q : Bool) (s : State) : offered q s =
    { s with timebase := (nextSecond s).timebase, lines := (nextSecond s).lines, link := (nextSecond s).link, tick := dueOf q (nextSecond s) } := by
  unfold offered
  generalize dueOf q (nextSecond s) = d
  rw [modTick, nextSecond_frame]

theorem slotOf_offered (q : Bool) (s : State) (n : Nat) : slotOf (offered q s) n = slotOf s n := by
  rw [slotOf_of_incidents (s := s) (by rw [offered_frame])]

theorem lineOf_offered (q : Bool) (s : State) (l : FieldLine) : lineOf (offered q s) l = secondQuiet (lineOf s l) := by
  rw [← lineOf_nextSecond, lineOf_of_lines (s := nextSecond s) (by rw [offered_frame])]

theorem exec_secondsTick_offers (q : Bool) {s : State} (hs : settled s = true) (h : s.timebase.runSecond < Config.maxRunSecond) :
    exec (.secondsTick q) s = .next (offerQualifier (countBlocks (offered q s))) := by
  rw [exec_settled (act := offerTick q) hs, offerTick_offers q h]
  rfl

/-! ## The records at a tick that the qualifier takes first -/

/-- R28, R94: the gate's count apart, a gate that takes a tick at once stays as it is. -/
theorem countBlocks_offered_gate (q : Bool) (s : State) : (countBlocks (offered q s)).gate =
    if s.gate.settling = true ∧ 1 < s.gate.count then { s.gate with count := s.gate.count - 1 } else s.gate := by
  have hgate : (offered q s).gate = s.gate := by rw [offered_frame]
  rw [countBlocks_gate, countGate_gate (by rw [hgate]; exact dueOf_nextSecond_gate q s), hgate]

theorem isHeld_offered (q : Bool) (s : State) (key : Nat) : isHeld (countBlocks (offered q s)) key = isHeld s key := by
  refine isHeld_congr ?_ ?_ ?_ key
  · rw [countBlocks_frame, offered_frame]
  all_goals
    rw [countBlocks_offered_gate]
    split <;> rfl

theorem faults_offered (q : Bool) (s : State) : (countBlocks (offered q s)).faults = s.faults := by
  rw [countBlocks_frame, offered_frame]

theorem tick_offered (q : Bool) (s : State) : (countBlocks (offered q s)).tick = dueOf q (nextSecond s) := by
  rw [countBlocks_frame]
  rfl

/-- R95: a tick that the qualifier takes first, and that brings no record to an end, counts every record. -/
theorem offerQualifier_first_counted {s : State} (hw : Table.wf s.faults = true) (h : ∀ key, recordEnds s key = false)
    {key : Nat} {r : Record} (hr : recordOf s key = some r) :
    recordOf (offerQualifier (countBlocks (offered true s))) key = some (tickCounted (isHeld s key) r) := by
  have hfirst : qualifierWaits (countBlocks (offered true s)).tick = false := by rw [tick_offered]; rfl
  have hrecord (k : Nat) : recordOf (countBlocks (offered true s)) k = recordOf s k := by
    simp only [recordOf, faults_offered]
  have hends (k : Nat) : recordEnds (countBlocks (offered true s)) k = false := by
    rw [← h k]
    simp only [recordEnds, hrecord, isHeld_offered]
  simp only [offerQualifier, hfirst, Bool.false_eq_true, if_false, recordOf_clearIfDone]
  rw [qualifyOn_counted (by rw [faults_offered]; exact hw) (by rw [tick_offered]; rfl) hends ((hrecord key).trans hr), isHeld_offered]

theorem tickCounted_still {held : Bool} {r : Record} (h : held = true ∨ r.state = .restored) : tickCounted held r = r := by
  unfold tickCounted
  split
  · rfl
  · next hheld =>
    have hs : r.state = .restored := h.resolve_left hheld
    simp only [countTick, hs]

theorem countTick_confirm_time {r : Record} (hs : r.state = .qualifying) (h : ∃ n, r.terms.confirm = .time n) :
    countTick r = { r with timer := r.timer + 1 } := by
  obtain ⟨n, hn⟩ := h
  simp only [countTick, hs, hn]

theorem countTick_confirm_count {r : Record} (hs : r.state = .qualifying) (h : ∃ n w, r.terms.confirm = .count n w) :
    countTick r = { r with windowLeft := r.windowLeft.map (· - 1) } := by
  obtain ⟨n, w, hn⟩ := h
  simp only [countTick, hs, hn]

/-! ## The other blocks at a tick -/

/-- R131: what a tick does to a RELEASING feeder slot. -/
theorem releaseCounted_offered (q : Bool) {s : State} {f : Nat} (h1 : 1 ≤ f) (h64 : f ≤ 64)
    (hs : (slotOf s (feederSlot f)).state = .releasing) :
    (1 < (slotOf s (feederSlot f)).release → slotOf (countBlocks (offered q s)) (feederSlot f) =
      { slotOf s (feederSlot f) with release := (slotOf s (feederSlot f)).release - 1 }) ∧
    ((slotOf s (feederSlot f)).release ≤ 1 → slotOf (countBlocks (offered q s)) (feederSlot f) = slotOf s (feederSlot f) ∧
      f ∈ (dueOf q (nextSecond s)).release) := by
  have hf := mem_feederNumbers.mpr ⟨h1, h64⟩
  rw [countBlocks_slot _ hf, slotOf_offered]
  unfold Slot.releaseCounted
  refine ⟨fun hn => if_pos ⟨hs, hn⟩, fun hn => ⟨if_neg fun hc => ?_, (mem_dueOf_nextSecond_release q s f).mpr ⟨hf, hs, hn⟩⟩⟩
  exact absurd hc.2 (Nat.not_lt_of_le hn)

/-- R38, R50: what a tick does to a line. -/
theorem lineOf_countBlocks_offered (q : Bool) (s : State) (l : FieldLine) : lineOf (countBlocks (offered q s)) l = { lineOf s l with
    interval := if (lineOf s l).state = .stopped ∨ l ∈ (dueOf q (nextSecond s)).lines then (lineOf s l).interval
      else (lineOf s l).interval - 1
    quiet := if (lineOf s l).quietSecond = true then max (lineOf s l).quiet 31 else (lineOf s l).quiet
    quietSecond := true } := by
  rw [countBlocks_line, lineOf_offered]
  rfl

/-- R183: what a tick does to a save. -/
theorem saving_countBlocks_offered (q : Bool) {s : State} {v : Saving} (hv : s.store.saving = some v) :
    (1 < v.count → (countBlocks (offered q s)).store.saving = some { v with count := v.count - 1 }) ∧
    (v.count ≤ 1 → (countBlocks (offered q s)).store.saving = some v ∧ (dueOf q (nextSecond s)).save = true) := by
  have hsave := dueOf_nextSecond_save q hv
  have hcount := countBlocks_saving (offered q s) (v := v) (by rw [offered_frame]; exact hv) hsave
  refine ⟨fun hn => ?_, fun hn => ⟨?_, ?_⟩⟩
  · rw [hcount, if_neg (Nat.not_le_of_lt hn)]
  · rw [hcount, if_pos hn]
  · rw [hsave, decide_eq_true hn]

end Sys2Proof.Machine

namespace Sys2Proof.Proofs
open Sys2Proof.Machine

/-- Settles O7: the blocks and then the qualifier take the tick; what each of them counts has its lemma, and the qualifier's part changes no other block. -/
theorem tickRaisesRecordTimers : Obligations.TickRaisesRecordTimers := by
  constructor
  · intro s hs hw hnow hends
    refine ⟨_, exec_secondsTick_offers true hs hnow, fun key r hr => ?_⟩
    rw [offerQualifier_first_counted hw hends hr]
    refine ⟨fun h => by rw [tickCounted_still h], fun hh hq hc => ?_, fun hh hq hc => ?_, fun hh hstate => ?_⟩
    · rw [hh, ← countTick_confirm_time hq hc]
      rfl
    · rw [hh, ← countTick_confirm_count hq hc]
      rfl
    · rw [hh, ← countTick_standing hstate]
      rfl
  · intro q s hs hnow
    obtain ⟨hframe, hdue⟩ := offerQualifier_frame (countBlocks (offered q s))
    rw [tick_offered] at hdue
    obtain ⟨hgate, hrotation, hrelease, hlines, hsave⟩ := hdue
    have hslot (n : Nat) : slotOf (offerQualifier (countBlocks (offered q s))) n = slotOf (countBlocks (offered q s)) n := by
      rw [slotOf_of_incidents (s := countBlocks (offered q s)) (by rw [hframe])]
    have hline (l : FieldLine) : lineOf (offerQualifier (countBlocks (offered q s))) l = lineOf (countBlocks (offered q s)) l := by
      rw [lineOf_of_lines (s := countBlocks (offered q s)) (by rw [hframe])]
    refine ⟨_, exec_secondsTick_offers q hs hnow, ?_, ?_, fun f h1 h64 hf => ?_, fun l => ⟨?_, ?_⟩, fun v hv => ?_, ?_⟩
    · have hsame : (offerQualifier (countBlocks (offered q s))).gate = (countBlocks (offered q s)).gate := by rw [hframe]
      exact hsame.trans (countBlocks_offered_gate q s)
    · rw [hgate, dueOf_nextSecond_gate, Bool.and_eq_true, decide_eq_true_eq]
    · rw [hslot, hrelease]
      exact releaseCounted_offered q h1 h64 hf
    · rw [hlines]
      exact mem_dueOf_nextSecond_lines q s l
    · rw [hline, hlines]
      exact lineOf_countBlocks_offered q s l
    · have hstore : (offerQualifier (countBlocks (offered q s))).store = (countBlocks (offered q s)).store := by rw [hframe]
      rw [hstore, hsave]
      exact saving_countBlocks_offered q hv
    · rw [hrotation]
      exact dueOf_nextSecond_rotation q s

end Sys2Proof.Proofs
end

section
/-! PROOF. BREAK-OUT and the release timer (R121, R132, R141): what becomes of a slot that releases its members, and of the members. -/

namespace Sys2Proof.Machine

/-! ## The release of a slot's members (R121) -/

theorem slotOf_releaseAll_ne {n m : Nat} (s : State) (h : m ≠ n) : slotOf (releaseAll n s) m = slotOf s m :=
  foldl_closed (P := fun t => slotOf t m = slotOf s m) (f := releaseMember n)
    (fun t _ ht => (slotOf_modSlot_ne (fun v => { v with members := v.members - 1 }) t h).trans ht) (memberKeys s n) s rfl

/-- R121: a slot's member is no member after the release, whatever the order of the fault table's keys. -/
theorem recordOf_releaseAll_member {s : State} {n key : Nat} {r : Record} (hr : recordOf s key = some r) (hi : r.incident = some n) :
    recordOf (releaseAll n s) key = some r.released := by
  have hmem : key ∈ memberKeys s n :=
    List.mem_map_of_mem (f := Prod.fst) (List.mem_filter.mpr ⟨Table.mem_of_find hr, decide_eq_true hi⟩)
  rw [releaseAll, recordOf_release, if_pos hmem, hr]
  rfl

/-! ## BREAK-OUT (R141) -/

theorem breakSlot_marks (n : Nat) (s : State) : MarkFrame (freeSlot n (releaseAll n s)) (breakSlot n s) := queueAction_frame _ _

theorem breakSlot_frame (n : Nat) (s : State) : SlotsFrame s (breakSlot n s) :=
  (releaseAll_frame n s).trans ((freeSlot_frame n _).trans (queueAction_slotsFrame _ _))

theorem breakSlot_slot (n : Nat) (s : State) : (slotOf (breakSlot n s) n).unmarked = {} := by
  rw [(breakSlot_marks n s).slot, slotOf_freeSlot_self]
  rfl

theorem breakSlot_slot_ne {n m : Nat} (s : State) (h : m ≠ n) : (slotOf (breakSlot n s) m).unmarked = (slotOf s m).unmarked := by
  rw [(breakSlot_marks n s).slot, freeSlot, slotOf_setSlot_ne _ _ h, slotOf_releaseAll_ne s h]

/-- R141: the members of the slot are released, and every other record is as it was. -/
theorem breakSlot_record {s : State} (hw : Table.wf s.faults = true) (n : Nat) {key : Nat} {r : Record} (hr : recordOf s key = some r) :
    ∃ q, recordOf (breakSlot n s) key = some q ∧ q.unmarked = (if r.incident = some n then r.released else r).unmarked :=
  (breakSlot_marks n s).record_some (recordOf_releaseAll hw n hr)

/-- R119: the slots of the outstations are the first 120. -/
theorem slotType_outstation_iff (n : Nat) : slotType n = .outstation ↔ n ≤ 120 := by
  by_cases h : n ≤ 120
  · simp [slotType, h]
  · rw [slotType, if_neg h]
    split <;> simpa using h

section
variable {b : List Byte} {s : State} (h1 : 1 ≤ u8 b 0) (h2 : u8 b 0 ≤ 248)
include h1 h2

/-- R141: BREAK-OUT of a slot in range is refused for an OUTSTATION or a FREE slot, and else taken. -/
theorem ownBreakOut_eq : ownBreakOut b s =
    if u8 b 0 ≤ 120 ∨ (slotOf s (u8 b 0)).state = .free then (s, refuse .state) else (breakSlot (u8 b 0) s, ok) := by
  have hr : slotInRange (u8 b 0) = true := (inRange_iff _ _ _).mpr ⟨h1, h2⟩
  by_cases ho : u8 b 0 ≤ 120
  · simp [ownBreakOut, hr, answer, firstRefusal, slotType_outstation_iff, ho]
  · by_cases hf : (slotOf s (u8 b 0)).state = .free <;>
      simp [ownBreakOut, hr, answer, firstRefusal, slotType_outstation_iff, ho, hf]

end

/-! ## The release timer (R132) -/

/-- R132: a RELEASING slot whose timer ends counts its members as left behind. -/
def Slot.leavingBehind (v : Slot) : Slot := { v with leftBehind := v.members, release := 0 }

/-- R132: the tables once the members are counted and released; the slot has still to enter RESTORED. -/
def releaseExpired (f : Nat) (s : State) : State := releaseAll (feederSlot f) (modSlot (feederSlot f) Slot.leavingBehind s)

theorem releaseExpired_frame (f : Nat) (s : State) : SlotsFrame s (releaseExpired f s) :=
  (modSlot_frame _ _ s).trans (releaseAll_frame _ _)

theorem expireRelease_marks (f : Nat) (s : State) : MarkFrame
    (modSlot (feederSlot f) (fun v => { v with state := .restored, restoredAt := some (now (releaseExpired f s)) }) (releaseExpired f s))
    (expireRelease f s) := queueAction_frame _ _

theorem expireRelease_frame (f : Nat) (s : State) : SlotsFrame s (expireRelease f s) :=
  ((releaseExpired_frame f s).trans (modSlot_frame _ _ _)).trans (queueAction_slotsFrame _ _)

/-- R132: the slot is RESTORED at this second, with the members it had counted as left behind. -/
theorem expireRelease_slot (f : Nat) (s : State) : (slotOf (expireRelease f s) (feederSlot f)).unmarked =
    { slotOf s (feederSlot f) with
      state := .restored, restoredAt := some (now s), leftBehind := (slotOf s (feederSlot f)).members, release := 0, waiting := none
      members := (slotOf s (feederSlot f)).members - (memberKeys s (feederSlot f)).length } := by
  have hkeys : memberKeys (modSlot (feederSlot f) Slot.leavingBehind s) (feederSlot f) = memberKeys s (feederSlot f) := memberKeys_congr rfl _
  rw [(expireRelease_marks f s).slot, slotOf_modSlot_self, (releaseExpired_frame f s).now, releaseExpired, releaseAll, hkeys, slotOf_release,
    slotOf_modSlot_self]
  rfl

/-- R121, R132: a member of the slot is released. -/
theorem expireRelease_member {s : State} {f key : Nat} {r : Record} (hr : recordOf s key = some r)
    (hi : r.incident = some (feederSlot f)) : ∃ q, recordOf (expireRelease f s) key = some q ∧ q.unmarked = r.released.unmarked :=
  (expireRelease_marks f s).record_some (recordOf_releaseAll_member hr hi)

/-- R132: of a RELEASING slot the release that is due is made. -/
theorem takeRelease_expires {f : Nat} {s : State} (hd : f ∈ s.tick.release) (hs : (slotOf s (feederSlot f)).state = .releasing) :
    takeRelease f s = expireRelease f (modTick (fun t => { t with release := t.release.filter (fun g => decide (g ≠ f)) }) s) := by
  rw [takeRelease, if_pos hd]
  exact if_pos hs

end Sys2Proof.Machine

namespace Sys2Proof.Proofs

open Sys2Proof.Machine

/-- Settles O49. A slot that may be broken out is freed after the release of its members; what follows is a queue action. -/
theorem breakOutFreesSlot : Obligations.BreakOutFreesSlot := by
  intro s f h hw h1 h2
  refine ⟨fun hn => exec_refused h ((ownBreakOut_eq h1 h2).trans (if_pos hn)), fun ho hfree => ?_⟩
  have hframe := breakSlot_frame (u8 f.body 0) s
  have htaken := (ownBreakOut_eq h1 h2).trans (if_neg (not_or.mpr ⟨Nat.not_le_of_lt ho, hfree⟩))
  refine ⟨_, exec_taken h htaken, hframe.eq, hframe.storms, breakSlot_slot _ s, fun n hn => breakSlot_slot_ne s hn,
    fun key r hr => ?_⟩
  obtain ⟨q, hq, hu⟩ := breakSlot_record hw (u8 f.body 0) hr
  exact ⟨q, hq, hu.trans (apply_ite Record.unmarked _ _ _)⟩

/-- Settles O13. The release that is due is made, and the tick's note of it changes no other block. -/
theorem releaseTimerRestoresSlot : Obligations.ReleaseTimerRestoresSlot := by
  intro s f hd hs
  refine ⟨clearIfDone (takeRelease f s), rfl, ?_⟩
  rw [clearIfDone_eq, takeRelease_expires hd hs]
  generalize hu : modTick (fun t => { t with release := t.release.filter (fun g => decide (g ≠ f)) }) s = u
  have hslot := expireRelease_slot f u
  have hframe := expireRelease_frame f u
  subst hu
  exact ⟨(congrArg Slot.state hslot :), (congrArg Slot.restoredAt hslot :), (congrArg Slot.leftBehind hslot :),
    (congrArg Slot.release hslot :), (congrArg Slot.seen hslot :), fun key r hr hi => expireRelease_member hr hi,
    hframe.timebase, hframe.directory, hframe.lines, hframe.link, hframe.store⟩

end Sys2Proof.Proofs
end

section
/-! PROOF. The rotation of the storm windows and the calm test that follows it (R135, R136). -/

namespace Sys2Proof.Machine

/-! ## The areas -/

theorem mem_areaNumbers {a : Nat} : a ∈ areaNumbers ↔ 1 ≤ a ∧ a ≤ 64 := mem_feederNumbers

theorem areaNumbers_nodup : areaNumbers.Nodup := feederNumbers_nodup

theorem areaSlot_inj {a b : Nat} (h : areaSlot b = areaSlot a) : b = a := Nat.add_left_cancel h

/-! ## The rotation of the windows -/

/-- R136: the state in which every window has rotated; the calm tests are still to be made. -/
def windowsRotated (s : State) : State := areaNumbers.foldl rotateArea s

theorem windowsRotated_frame (s : State) : TablesFrame s (windowsRotated s) :=
  foldl_closed (P := TablesFrame s) (f := rotateArea) (fun t a h => h.trans (setWindow_claims a _ t).toTablesFrame) areaNumbers s (.refl s)

theorem slotOf_windowsRotated (s : State) (n : Nat) : slotOf (windowsRotated s) n = slotOf s n :=
  foldl_closed (P := fun t => slotOf t n = slotOf s n) (f := rotateArea) (fun _ _ h => h) areaNumbers s rfl

/-- R136: the window of every area rotates once. -/
theorem windowOf_windowsRotated {a : Nat} (h : a ∈ areaNumbers) (s : State) :
    windowOf (windowsRotated s) a = rotateWindow (windowOf s a) := by
  have hread := foldl_read (P := fun _ => True) (f := rotateArea) (read := windowOf) (act := fun _ => rotateWindow) (fun _ _ _ => trivial)
    (fun s a _ => windowOf_setWindow_self a _ s) (fun s a b hb => windowOf_setWindow_ne _ s hb) areaNumbers_nodup (s := s) trivial a
  rw [windowsRotated, hread, if_pos h]

/-! ## The calm test -/

/-- R136: an area's slot after its calm test, at a second. -/
def Slot.calmed (calm : Bool) (t : Seconds) (v : Slot) : Slot :=
  if v.state = .opened ∧ v.absorbing = true ∧ calm = true then
    if v.members = 0 then { v with absorbing := false, state := .restored, restoredAt := some t } else { v with absorbing := false }
  else v

theorem calmSlots_self (s : State) (a : Nat) :
    slotOf (calmSlots s a) (areaSlot a) = (slotOf s (areaSlot a)).calmed (areaCalm s a) (now s) := by
  unfold calmSlots Slot.calmed
  dsimp only
  split
  · split <;> rw [slotOf_modSlot_self]
  · rfl

theorem calmSlots_ne {a n : Nat} (s : State) (h : n ≠ areaSlot a) : slotOf (calmSlots s a) n = slotOf s n := by
  unfold calmSlots
  dsimp only
  split
  · split <;> exact slotOf_modSlot_ne _ s h
  · rfl

theorem calmSlots_frame (s : State) (a : Nat) : SlotsFrame s (calmSlots s a) := by
  unfold calmSlots
  dsimp only
  split
  · split <;> exact modSlot_frame _ _ s
  · exact .refl s

theorem TablesFrame.areaOf {s t : State} (h : TablesFrame s t) (a : Nat) : Machine.areaOf t a = Machine.areaOf s a := by
  simp only [Machine.areaOf, h.directory]

theorem SlotsFrame.windowOf {s t : State} (h : SlotsFrame s t) (a : Nat) : Machine.windowOf t a = Machine.windowOf s a := by
  simp only [Machine.windowOf, h.storms]

/-- R136: what passes the calm test. -/
theorem areaCalm_iff (s : State) (a : Nat) :
    areaCalm s a = true ↔ (areaOf s a).stormThreshold = 0 ∨ (windowOf s a).sum ≤ (areaOf s a).calmLevel := by
  change _ ↔ _ ∨ stormSum s a ≤ _
  simp [areaCalm]

/-- R136: the calm test looks at the windows and the area's settings alone. -/
theorem SlotsFrame.areaCalm {s t : State} (h : SlotsFrame s t) (a : Nat) : Machine.areaCalm t a = Machine.areaCalm s a := by
  rw [Bool.eq_iff_iff, areaCalm_iff, areaCalm_iff, h.areaOf, h.windowOf]

/-- R136: an area that is calm stops absorbing, and its slot is RESTORED when it has no members. -/
theorem calmed_calm {v : Slot} (hs : v.state = .opened) (ha : v.absorbing = true) (t : Seconds) :
    (v.calmed true t).absorbing = false ∧ (v.calmed true t).state = if v.members = 0 then .restored else .opened := by
  rw [Slot.calmed, if_pos ⟨hs, ha, rfl⟩]
  split
  · exact ⟨rfl, rfl⟩
  · exact ⟨rfl, hs⟩

/-! ## The rotation whole -/

/-- R136: the calm test of each area is made once. -/
theorem slotOf_calmSlots {a : Nat} (h : a ∈ areaNumbers) (s : State) :
    slotOf (areaNumbers.foldl calmSlots s) (areaSlot a) = (slotOf s (areaSlot a)).calmed (areaCalm s a) (now s) := by
  have hread := foldl_read (P := SlotsFrame s) (f := calmSlots) (read := fun t a => slotOf t (areaSlot a))
    (act := fun a => Slot.calmed (areaCalm s a) (now s)) (fun t a ht => ht.trans (calmSlots_frame t a))
    (fun t a ht => by rw [calmSlots_self, ht.areaCalm, ht.now]) (fun t a b hb => calmSlots_ne t (mt areaSlot_inj hb))
    areaNumbers_nodup (.refl s) a
  rw [hread, if_pos h]

@[simp] theorem slotOf_clearIfDone (s : State) (n : Nat) : slotOf (clearIfDone s) n = slotOf s n := by
  unfold clearIfDone
  split <;> rfl

@[simp] theorem windowOf_clearIfDone (s : State) (a : Nat) : windowOf (clearIfDone s) a = windowOf s a := by
  unfold clearIfDone
  split <;> rfl

theorem rotateStorms_marks (s : State) : MarkFrame (areaNumbers.foldl calmSlots (windowsRotated s)) (rotateStorms s) := queueAction_frame _ _

theorem rotateStorms_window {a : Nat} (h : a ∈ areaNumbers) (s : State) :
    windowOf (rotateStorms s) a = rotateWindow (windowOf s a) := by
  have hstorms : (rotateStorms s).incidents.storms = (windowsRotated s).incidents.storms :=
    (rotateStorms_marks s).storms.trans (foldl_slotsFrame calmSlots_frame areaNumbers (windowsRotated s)).storms
  rw [windowOf, hstorms]
  exact windowOf_windowsRotated h s

/-- R136: the slot of each area after the rotation has had the calm test of the rotated window. -/
theorem rotateStorms_slot {a : Nat} (h : a ∈ areaNumbers) (s : State) : (slotOf (rotateStorms s) (areaSlot a)).unmarked =
    ((slotOf s (areaSlot a)).calmed (areaCalm (windowsRotated s) a) (now s)).unmarked := by
  rw [(rotateStorms_marks s).slot, slotOf_calmSlots h, slotOf_windowsRotated, (windowsRotated_frame s).now]

end Sys2Proof.Machine

namespace Sys2Proof.Proofs

open Sys2Proof.Machine

/-- Settles O14. The rotation that is due is made, each window once, and each area's slot has its calm test on the rotated window. -/
theorem stormWindowsRotate : Obligations.StormWindowsRotate := by
  intro s hd
  refine ⟨clearIfDone (takeRotation s), rfl, fun a h1 h64 => ?_⟩
  have ha := mem_areaNumbers.mpr ⟨h1, h64⟩
  rw [windowOf_clearIfDone, slotOf_clearIfDone, takeRotation, if_pos hd]
  refine ⟨rotateStorms_window ha _, fun hopen habsorbing hcalm => ?_⟩
  have hslot := rotateStorms_slot ha (modTick (fun t => { t with rotation := false }) s)
  have htest : areaCalm (windowsRotated (modTick (fun t => { t with rotation := false }) s)) a = true := by
    rw [areaCalm_iff, windowOf_windowsRotated ha, (windowsRotated_frame _).areaOf]
    exact hcalm
  rw [htest] at hslot
  generalize slotOf (rotateStorms _) (areaSlot a) = v at hslot ⊢
  obtain ⟨hends, hstate⟩ := calmed_calm hopen habsorbing (now s)
  exact ⟨(congrArg Slot.absorbing hslot).trans hends, (congrArg Slot.state hslot).trans hstate⟩

end Sys2Proof.Proofs
end

section
/-! PROOF. What the Incident Table makes of a record that confirms (R123): the storm count (R135), the opening of a feeder's slot (R129, R133) and
of an area's (R137), and the joining of a slot that stands open (R130, R138). -/

namespace Sys2Proof.Machine

/-! ## Selections of records -/

/-- A change of a record that a test does not see changes no selection by that test. -/
theorem recordKeys_modRecord {key : Nat} {f : Record → Record} {p : Nat → Record → Bool} (h : ∀ r, p key (f r) = p key r) (s : State) :
    recordKeys (modRecord key f s) p = recordKeys s p := by
  have hsame (e : Nat × Record) : p (if e.1 = key then (e.1, f e.2) else e).1 (if e.1 = key then (e.1, f e.2) else e).2 = p e.1 e.2 := by
    split
    · rename_i hk
      rw [hk]
      exact h e.2
    · rfl
  simp only [recordKeys, modRecord, Table.modify, List.filter_map, List.map_map, Function.comp_def, hsame]
  refine List.map_congr_left fun e _ => ?_
  split <;> rfl

theorem recordKeys_nodup {s : State} (hw : Table.wf s.faults = true) (p : Nat → Record → Bool) : (recordKeys s p).Nodup :=
  ((Table.wf_iff _).mp (Table.wf_filter hw _)).imp Nat.ne_of_lt

/-- A change of a record that makes it pass a test adds its key to the selection by that test. -/
theorem recordKeys_added {s : State} {key : Nat} {r : Record} {f : Record → Record} {p : Nat → Record → Bool}
    (hw : Table.wf s.faults = true) (hr : recordOf s key = some r) (hout : p key r = false) (hin : p key (f r) = true) :
    (recordKeys (modRecord key f s) p).Perm (key :: recordKeys s p) := by
  have hw' : Table.wf (modRecord key f s).faults = true := Table.wf_modify hw _ _
  have hkey : key ∉ recordKeys s p := fun h => by
    obtain ⟨q, hq, hp⟩ := (mem_recordKeys hw p key).mp h
    cases hr.symm.trans hq
    rw [hout] at hp
    cases hp
  refine (List.perm_ext_iff_of_nodup (recordKeys_nodup hw' p) (List.nodup_cons.mpr ⟨hkey, recordKeys_nodup hw p⟩)).mpr fun k => ?_
  rw [List.mem_cons, mem_recordKeys hw', mem_recordKeys hw]
  by_cases hk : k = key
  · subst hk
    simp [hr, hin]
  · simp [recordOf_modRecord_ne _ _ hk, hk]

/-- R129: a record of another condition than CIRCUIT-DARK and PARTIAL-OUT is nothing to a feeder's candidates. -/
theorem feederCandidates_modRecord {key : Nat} (hd : darkCondition (keyCondition key) = false) (g : Record → Record) (s : State) (f : Nat) :
    feederCandidates (modRecord key g s) f = feederCandidates s f :=
  recordKeys_modRecord (fun r => by simp [hd]) s

theorem darkCondition_iff (c : Condition) : darkCondition c = true ↔ c = .circuitDark ∨ c = .partialOut := by simp [darkCondition]

/-! ## The record that confirms (R100) -/

/-- R100: the record has its fields, and the Incident Table has still to look at it. -/
def confirming (key : Nat) (s : State) : State := modRecord key (confirmFields (now s) (quality s)) (adoptTerms key s)

/-- R100: the fields of the record that confirms, for the Incident Table. -/
def confirmingRecord (s : State) (key : Nat) (r : Record) : Record :=
  confirmFields (now s) (quality s) { r with terms := profileTerms s key }

theorem confirming_frame (key : Nat) (s : State) : SlotsFrame s (confirming key s) := (modRecord_frame key _ s).trans (modRecord_frame key _ _)

theorem slotOf_confirming (key : Nat) (s : State) (n : Nat) : slotOf (confirming key s) n = slotOf s n := rfl

theorem recordOf_confirming_ne {key k : Nat} (h : k ≠ key) (s : State) : recordOf (confirming key s) k = recordOf s k :=
  (recordOf_modRecord_ne _ _ h).trans (recordOf_modRecord_ne _ _ h)

theorem wf_adoptTerms (key : Nat) {s : State} (hw : Table.wf s.faults = true) : Table.wf (adoptTerms key s).faults = true := by
  rw [adoptTerms, modRecord_faults]
  exact Table.wf_modify hw _ _

theorem wf_confirming (key : Nat) {s : State} (hw : Table.wf s.faults = true) : Table.wf (confirming key s).faults = true :=
  Table.wf_modify (wf_adoptTerms key hw) _ _

theorem feederCandidates_confirming {key : Nat} (hd : darkCondition (keyCondition key) = false) (s : State) (f : Nat) :
    feederCandidates (confirming key s) f = feederCandidates s f :=
  (feederCandidates_modRecord hd _ _ f).trans (feederCandidates_modRecord hd _ s f)

section
variable {s : State} {key : Nat} {r : Record} (hr : recordOf s key = some r)
include hr

theorem recordOf_confirming : recordOf (confirming key s) key = some (confirmingRecord s key r) := by
  rw [confirming, recordOf_modRecord_self, recordOf_adoptTerms hr]
  rfl

/-- R100, R123: past its fields, a QUALIFYING record's confirmation is what the Incident Table makes of it, and a queue action. -/
theorem confirmRecord_marks (hq : r.state = .qualifying) : MarkFrame (claimSlots key (confirming key s)) (confirmRecord key s) := by
  have hterms : takeTerms key s = adoptTerms key s := escalationTest_not_standing (recordOf_adoptTerms hr) (by simp [standing, hq])
  have hconfirm : confirmRecord key s =
      queueAction (claimThings key (claimSlots key (confirming key s))) (claimSlots key (confirming key s)) := by
    unfold confirmRecord
    rw [hterms]
    rfl
  rw [hconfirm]
  exact queueAction_frame _ _

/-- R137: a record that confirms becomes a candidate of its area. -/
theorem areaCandidates_confirming (hw : Table.wf s.faults = true) (hq : r.state = .qualifying) (hi : r.incident = none) {x : Asset}
    (hx : assetOf s (keyAsset key) = some x) :
    (areaCandidates (confirming key s) x.settings.area).Perm (key :: areaCandidates s x.settings.area) := by
  have hadopted : areaCandidates (adoptTerms key s) x.settings.area = areaCandidates s x.settings.area :=
    recordKeys_modRecord (f := fun r => { r with terms := profileTerms s key }) (fun _ => rfl) s
  rw [← hadopted]
  refine recordKeys_added (wf_adoptTerms key hw) (recordOf_adoptTerms hr) (by simp [standing, hq]) ?_
  have hasset : assetIs (confirming key s) key (fun y => decide (y.area = x.settings.area)) = true := by
    have hx' : assetOf (confirming key s) (keyAsset key) = some x := hx
    simp [assetIs, hx']
  have hstanding : standing (confirmingRecord s key r) = true := (standing_iff _).mpr ⟨.inl rfl, rfl, hi⟩
  exact Bool.and_eq_true_iff.mpr ⟨hstanding, hasset⟩

end

/-! ## The storm count (R135) -/

/-- R135: the last bucket of a window rises by 1, up to 255. -/
theorem bumpWindow_append (front : List Nat) (last : Nat) : bumpWindow (front ++ [last]) = front ++ [min 255 (last + 1)] := by
  induction front with
  | nil => rfl
  | cons n front ih =>
    cases front with
    | nil => rfl
    | cons m front => exact congrArg (n :: ·) ih

theorem windowOf_countStorm (a : Nat) (s : State) (area : Nat) :
    windowOf (countStorm a s) area = if area = a ∧ area ≠ 0 then bumpWindow (windowOf s area) else windowOf s area := by
  unfold countStorm
  by_cases ha : a = 0
  · rw [if_pos ha, if_neg fun h => h.2 (h.1.trans ha)]
  · rw [if_neg ha]
    by_cases h : area = a
    · subst h
      rw [windowOf_setWindow_self, if_pos ⟨rfl, ha⟩]
    · rw [windowOf_setWindow_ne _ _ h, if_neg fun hn => h hn.1]

theorem countStorm_frame (a : Nat) (s : State) : TablesFrame s (countStorm a s) := (countStorm_claims a s).toTablesFrame

theorem faults_countStorm (a : Nat) (s : State) : (countStorm a s).faults = s.faults := by
  unfold countStorm
  split <;> rfl

@[simp] theorem recordOf_countStorm (a : Nat) (s : State) (key : Nat) : recordOf (countStorm a s) key = recordOf s key := by
  simp only [recordOf, faults_countStorm]

@[simp] theorem slotOf_countStorm (a : Nat) (s : State) (n : Nat) : slotOf (countStorm a s) n = slotOf s n := by
  unfold countStorm
  split <;> rfl

@[simp] theorem feederCandidates_countStorm (a : Nat) (s : State) (f : Nat) : feederCandidates (countStorm a s) f = feederCandidates s f := by
  unfold countStorm
  split <;> rfl

@[simp] theorem areaCandidates_countStorm (a : Nat) (s : State) (b : Nat) : areaCandidates (countStorm a s) b = areaCandidates s b := by
  unfold countStorm
  split <;> rfl

/-! ## The opening of a feeder's slot (R129, R133) -/

/-- R129, R133: a feeder's slot that opens or reopens at a second, with its root. -/
def Slot.rooted (t : Seconds) (root : Nat) (v : Slot) : Slot :=
  { v with state := .opened, seen := false, openedAt := some t, restoredAt := none, release := 0, root := some root, leftBehind := 0 }

/-- R123 step 2: the confirming record is the root of its asset's feeder, whose slot is not open. -/
abbrev Roots (s : State) (c : Condition) (x : AssetSettings) : Prop :=
  c = .mainsLost ∧ x.kind = .cabinet ∧ x.feeder ≠ 0 ∧ (slotOf s (feederSlot x.feeder)).state ≠ .opened

/-- R123 step 3: the confirming record is a dark circuit of a feeder whose slot is open. -/
abbrev Feeds (s : State) (c : Condition) (x : AssetSettings) : Prop :=
  (c = .circuitDark ∨ c = .partialOut) ∧ x.kind = .lampCircuit ∧ x.feeder ≠ 0 ∧ (slotOf s (feederSlot x.feeder)).state = .opened

/-- R120: a record of the list is a member once the list has joined. -/
theorem joinAll_member {n key : Nat} {keys : List Nat} {s : State} {r : Record} (h : key ∈ keys) (hr : recordOf s key = some r) :
    ∃ q, recordOf (joinAll n keys s) key = some q ∧ q.incident = some n :=
  ⟨_, by rw [recordOf_joinAll, if_pos h, hr]; rfl, rfl⟩

theorem openFeederSlots_eq {key : Nat} (hd : darkCondition (keyCondition key) = false) (f : Nat) (s : State) :
    openFeederSlots f key s = joinAll (feederSlot f) (feederCandidates s f)
      (joinSlot (feederSlot f) (modSlot (feederSlot f) (Slot.rooted (now s) key) s) key) := by
  have hsame : feederCandidates (joinSlot (feederSlot f) (modSlot (feederSlot f) (Slot.rooted (now s) key) s) key) f = feederCandidates s f :=
    feederCandidates_modRecord hd _ _ f
  rw [← hsame]
  rfl

section
variable {s : State} {key : Nat} (hd : darkCondition (keyCondition key) = false) (f : Nat)
include hd

theorem openFeederSlots_slot : slotOf (openFeederSlots f key s) (feederSlot f) =
    { (slotOf s (feederSlot f)).rooted (now s) key with
      members := (slotOf s (feederSlot f)).members + 1 + (feederCandidates s f).length } := by
  rw [openFeederSlots_eq hd, slotOf_joinAll_self, slotOf_joinSlot_self, slotOf_modSlot_self]
  rfl

theorem openFeederSlots_root {m : Record} (hm : recordOf s key = some m) :
    recordOf (openFeederSlots f key s) key = some (m.joined (feederSlot f) false) := by
  have hjoined : recordOf (joinSlot (feederSlot f) (modSlot (feederSlot f) (Slot.rooted (now s) key) s) key) key =
      some (m.joined (feederSlot f) false) := by
    have hm' : recordOf (modSlot (feederSlot f) (Slot.rooted (now s) key) s) key = some m := hm
    rw [recordOf_joinSlot, if_pos rfl, hm', slotOf_modSlot_self]
    rfl
  rw [openFeederSlots_eq hd, recordOf_joinAll, hjoined, slotOf_joinSlot_self, slotOf_modSlot_self]
  split
  · exact congrArg some (Record.joined_joined _ _ _)
  · rfl

theorem openFeederSlots_member (hw : Table.wf s.faults = true) {k : Nat} (hk : k ∈ feederCandidates s f) :
    ∃ q, recordOf (openFeederSlots f key s) k = some q ∧ q.incident = some (feederSlot f) := by
  obtain ⟨r, hr, -⟩ := (mem_recordKeys hw _ k).mp hk
  have hclaims := (modSlot_claims (feederSlot f) (Slot.rooted (now s) key) s).trans (joinSlot_claims (feederSlot f) _ key)
  obtain ⟨q, hq, -⟩ := hclaims.record_some hr
  rw [openFeederSlots_eq hd]
  exact joinAll_member hk hq

end

/-! ## The area's part (R123 step 4, R137, R138) -/

/-- R123 step 4: what the slot of the record's area makes of the record, when it has an area. -/
def areaSlots (a key : Nat) (s : State) : State := if a = 0 then s else areaClaimSlots a key (areaTestSlots a s)

/-- R137: an area's slot that opens at a second. -/
def Slot.storming (t : Seconds) (v : Slot) : Slot :=
  { v with state := .opened, absorbing := true, seen := false, openedAt := some t, restoredAt := none }

/-- R137: the opening test. -/
theorem areaOpens_iff (s : State) (a : Nat) : areaOpens s a = true ↔
    (areaOf s a).stormThreshold ≠ 0 ∧ (areaOf s a).stormThreshold ≤ (windowOf s a).sum ∧ (slotOf s (areaSlot a)).absorbing = false := by
  change _ ↔ _ ∧ _ ≤ stormSum s a ∧ _
  simp [areaOpens, and_assoc]

/-- R137: an area that opens gathers its candidates. -/
theorem areaTestSlots_opens {s : State} {a : Nat} (h : areaOpens s a = true) : areaTestSlots a s =
    joinAll (areaSlot a) (areaCandidates s a) (modSlot (areaSlot a) (Slot.storming (now s)) s) := if_pos h

theorem areaTestSlots_fails {s : State} {a : Nat} (h : ¬ areaOpens s a = true) : areaTestSlots a s = s := if_neg h

/-- R138: a record that is a member already is not claimed. -/
theorem areaClaimSlots_member {s : State} {key : Nat} {r : Record} (hr : recordOf s key = some r) (hi : r.incident ≠ none) (a : Nat) :
    areaClaimSlots a key s = s :=
  if_neg fun ⟨_, _, hfree⟩ => hi (by simpa [hr] using hfree)

/-- The records that are members, and the slots but the areas', are as they were. -/
structure MembersKept (s t : State) : Prop where
  member : ∀ k r, recordOf s k = some r → r.incident ≠ none → recordOf t k = some r
  slot : ∀ n, n ≤ 184 → slotOf t n = slotOf s n

theorem MembersKept.refl (s : State) : MembersKept s s := ⟨fun _ _ hr _ => hr, fun _ _ => rfl⟩

/-- R137: an area's opening gathers no member of another slot. -/
theorem areaTestSlots_keeps {s : State} (hw : Table.wf s.faults = true) {a : Nat} (ha : a ≠ 0) : MembersKept s (areaTestSlots a s) := by
  by_cases h : areaOpens s a = true
  · rw [areaTestSlots_opens h]
    refine ⟨fun k r hr hi => ?_, fun n hn => ?_⟩
    · have hout : k ∉ areaCandidates s a := fun hk => by
        obtain ⟨q, hq, hp⟩ := (mem_recordKeys hw _ k).mp hk
        cases hr.symm.trans hq
        obtain ⟨-, -, hfree⟩ := (standing_iff r).mp (Bool.and_eq_true_iff.mp hp).1
        exact hi hfree
      rw [recordOf_joinAll, if_neg hout]
      exact hr
    · have hne : n ≠ areaSlot a := by
        unfold areaSlot
        omega
      rw [slotOf_joinAll_ne _ _ hne, slotOf_modSlot_ne _ _ hne]
  · rw [areaTestSlots_fails h]
    exact .refl s

/-- R123 step 4: a record that its feeder has claimed is nothing to its area's slot, which may open and gather others. -/
theorem areaSlots_keeps {s : State} (hw : Table.wf s.faults = true) {key : Nat} {r : Record} (hr : recordOf s key = some r)
    (hi : r.incident ≠ none) (a : Nat) : MembersKept s (areaSlots a key s) := by
  unfold areaSlots
  split
  · exact .refl s
  · rename_i ha
    have htest := areaTestSlots_keeps hw ha
    rw [areaClaimSlots_member (htest.member key r hr hi) hi]
    exact htest

section
variable {s : State} {a key : Nat} {m : Record} (ha : a ≠ 0)
include ha

/-- R137: the area opens and gathers the confirming record with its candidates. -/
theorem areaSlots_opens (hm : recordOf s key = some m) (h : areaOpens s a = true) (hk : key ∈ areaCandidates s a) : areaSlots a key s =
    joinAll (areaSlot a) (areaCandidates s a) (modSlot (areaSlot a) (Slot.storming (now s)) s) := by
  have hm' : recordOf (modSlot (areaSlot a) (Slot.storming (now s)) s) key = some m := hm
  obtain ⟨q, hq, hi⟩ := joinAll_member (n := areaSlot a) hk hm'
  rw [areaSlots, if_neg ha, areaTestSlots_opens h, areaClaimSlots_member hq (by rw [hi]; simp)]

/-- R138: an absorbing area claims the confirming record. -/
theorem areaSlots_absorbs (hm : recordOf s key = some m) (h : ¬ areaOpens s a = true) (hi : m.incident = none)
    (hv : (slotOf s (areaSlot a)).state = .opened ∧ (slotOf s (areaSlot a)).absorbing = true) :
    areaSlots a key s = joinSlot (areaSlot a) s key := by
  rw [areaSlots, if_neg ha, areaTestSlots_fails h]
  exact if_pos ⟨hv.1, hv.2, by simp [hm, hi]⟩

/-- R123: any other area leaves the record outside every incident. -/
theorem areaSlots_leaves (h : ¬ areaOpens s a = true)
    (hv : ¬ ((slotOf s (areaSlot a)).state = .opened ∧ (slotOf s (areaSlot a)).absorbing = true)) : areaSlots a key s = s := by
  rw [areaSlots, if_neg ha, areaTestSlots_fails h]
  exact if_neg fun hc => hv ⟨hc.1, hc.2.1⟩

end

/-! ## The claims (R123) -/

theorem joinSlot_frame (n : Nat) (s : State) (key : Nat) : SlotsFrame s (joinSlot n s key) :=
  (modSlot_frame n _ s).trans (modRecord_frame key _ _)

theorem joinAll_frame (n : Nat) (keys : List Nat) (s : State) : SlotsFrame s (joinAll n keys s) := foldl_slotsFrame (joinSlot_frame n) keys s

theorem rootSlots_frame (key : Nat) (x : AssetSettings) (s : State) : SlotsFrame s (rootSlots key x s) := by
  unfold rootSlots
  split
  · exact ((modSlot_frame _ _ s).trans (joinSlot_frame _ _ key)).trans (joinAll_frame _ _ _)
  · exact .refl s

theorem feederClaimSlots_frame (key : Nat) (x : AssetSettings) (s : State) : SlotsFrame s (feederClaimSlots key x s) := by
  unfold feederClaimSlots
  split
  · exact joinSlot_frame _ s key
  · exact .refl s

theorem areaSlots_frame (a key : Nat) (s : State) : SlotsFrame s (areaSlots a key s) := by
  have htest : SlotsFrame s (areaTestSlots a s) := by
    unfold areaTestSlots
    split
    · exact (modSlot_frame _ _ s).trans (joinAll_frame _ _ _)
    · exact .refl s
  unfold areaSlots areaClaimSlots
  split
  · exact .refl s
  · dsimp only
    split
    · exact htest.trans (joinSlot_frame _ _ key)
    · exact htest

theorem claimSlots_eq {s : State} {key : Nat} {x : Asset} (hx : assetOf s (keyAsset key) = some x) : claimSlots key s =
    areaSlots x.settings.area key (feederClaimSlots key x.settings (rootSlots key x.settings (countStorm x.settings.area s))) := by
  simp only [claimSlots, hx]
  rfl

section
variable {s : State} {key : Nat} {x : Asset} (hx : assetOf s (keyAsset key) = some x)
include hx

/-- R135: of the windows, a confirmation changes its area's alone. -/
theorem claimSlots_window (area : Nat) : windowOf (claimSlots key s) area = windowOf (countStorm x.settings.area s) area := by
  rw [claimSlots_eq hx]
  exact (((rootSlots_frame key _ _).trans (feederClaimSlots_frame key _ _)).trans (areaSlots_frame _ key _)).windowOf area

/-- R123 steps 3 and 4: a record that its feeder does not claim is left to its area. -/
theorem claimSlots_unfed (hroot : ¬ Roots s (keyCondition key) x.settings) (hfeed : ¬ Feeds s (keyCondition key) x.settings) :
    claimSlots key s = areaSlots x.settings.area key (countStorm x.settings.area s) := by
  rw [claimSlots_eq hx, rootSlots, if_neg (by simpa only [slotOf_countStorm] using hroot), feederClaimSlots,
    if_neg (by simpa only [slotOf_countStorm, darkCondition_iff] using hfeed)]

section
variable (hw : Table.wf s.faults = true) {m : Record} (hm : recordOf s key = some m)
include hw hm

/-- R123 step 2: the record roots its feeder's incident, and its area leaves it there. -/
theorem claimSlots_roots (h : Roots s (keyCondition key) x.settings) :
    MembersKept (openFeederSlots x.settings.feeder key (countStorm x.settings.area s)) (claimSlots key s) := by
  have hd : darkCondition (keyCondition key) = false := by rw [h.1]; rfl
  have hw' : Table.wf (countStorm x.settings.area s).faults = true := by rwa [faults_countStorm]
  rw [claimSlots_eq hx, rootSlots, if_pos (by simpa only [slotOf_countStorm] using h), feederClaimSlots, if_neg (by simp [hd])]
  refine areaSlots_keeps (openFeederSlots_closed faultsWf_closed _ _ hw') (r := m.joined (feederSlot x.settings.feeder) false) ?_ nofun _
  exact openFeederSlots_root hd _ (by rwa [recordOf_countStorm])

/-- R123 step 3: the record joins its feeder's incident, and its area leaves it there. -/
theorem claimSlots_feeds (h : Feeds s (keyCondition key) x.settings) :
    MembersKept (joinSlot (feederSlot x.settings.feeder) (countStorm x.settings.area s) key) (claimSlots key s) := by
  have ⟨_, _, _, hopen⟩ := h
  have hroot : ¬ Roots s (keyCondition key) x.settings := fun ⟨_, _, _, hshut⟩ => hshut hopen
  have hw' : Table.wf (countStorm x.settings.area s).faults = true := by rwa [faults_countStorm]
  rw [claimSlots_eq hx, rootSlots, if_neg (by simpa only [slotOf_countStorm] using hroot), feederClaimSlots,
    if_pos (by simpa only [slotOf_countStorm, darkCondition_iff] using h)]
  have hjoined : recordOf (joinSlot (feederSlot x.settings.feeder) (countStorm x.settings.area s) key) key =
      some (m.joined (feederSlot x.settings.feeder) (slotOf s (feederSlot x.settings.feeder)).seen) := by
    rw [recordOf_joinSlot, if_pos rfl, recordOf_countStorm, slotOf_countStorm, hm]
    rfl
  exact areaSlots_keeps (joinSlot_closed faultsWf_closed _ _ _ hw') hjoined nofun _

end

end

end Sys2Proof.Machine
end

section
/-! PROOF. The confirmation whole (R100, R123): the claims in terms of the state before it, and what the qualifier's way on leaves of them. -/

namespace Sys2Proof.Machine

/-! ## The state that the claims leave -/

/-- R100, R123: the record has confirmed and the Incident Table has looked at it; the queue has still to be told. -/
def claimed (key : Nat) (s : State) : State := claimSlots key (confirming key s)

section
variable {s : State} {key : Nat} {x : Asset} (hx : assetOf s (keyAsset key) = some x)
include hx

/-- R123 step 1, R135: the confirmation counts in the current bucket of its area. -/
theorem claimed_window {area : Nat} {front : List Nat} {last : Nat} (h : windowOf s area = front ++ [last]) :
    windowOf (claimed key s) area =
      if area = x.settings.area ∧ area ≠ 0 then front ++ [min 255 (last + 1)] else windowOf s area := by
  have hsame : windowOf (confirming key s) area = windowOf s area := (confirming_frame key s).windowOf area
  rw [claimed, claimSlots_window (s := confirming key s) hx, windowOf_countStorm, hsame, h, bumpWindow_append]

/-- R137: the opening test, with the confirmation counted. -/
theorem claimed_opens_iff : areaOpens (countStorm x.settings.area (confirming key s)) x.settings.area = true ↔
    (areaOf s x.settings.area).stormThreshold ≠ 0 ∧
    (areaOf s x.settings.area).stormThreshold ≤ (windowOf (claimed key s) x.settings.area).sum ∧
    (slotOf s (areaSlot x.settings.area)).absorbing = false := by
  have hframe := (confirming_frame key s).toTablesFrame.trans (countStorm_frame x.settings.area _)
  rw [areaOpens_iff, hframe.areaOf, slotOf_countStorm, slotOf_confirming, claimed, claimSlots_window (s := confirming key s) hx]

section
variable (hw : Table.wf s.faults = true) {r : Record} (hr : recordOf s key = some r)
include hw hr

/-- R123 step 2, R129, R133: the feeder's slot opens with the record as its root, and gathers its dark circuits. -/
theorem claimed_roots (hf : x.settings.feeder ≤ 64) (h : Roots s (keyCondition key) x.settings) :
    recordOf (claimed key s) key = some ((confirmingRecord s key r).joined (feederSlot x.settings.feeder) false) ∧
    slotOf (claimed key s) (feederSlot x.settings.feeder) = { (slotOf s (feederSlot x.settings.feeder)).rooted (now s) key with
      members := (slotOf s (feederSlot x.settings.feeder)).members + 1 + (feederCandidates s x.settings.feeder).length } ∧
    ∀ k ∈ feederCandidates s x.settings.feeder, ∃ q, recordOf (claimed key s) k = some q ∧
      q.incident = some (feederSlot x.settings.feeder) := by
  have hd : darkCondition (keyCondition key) = false := by rw [h.1]; rfl
  have hw' := wf_confirming key hw
  have hkept := claimSlots_roots (s := confirming key s) hx hw' (recordOf_confirming hr) h
  have hcandidates : feederCandidates (countStorm x.settings.area (confirming key s)) x.settings.feeder =
      feederCandidates s x.settings.feeder := by
    rw [feederCandidates_countStorm, feederCandidates_confirming hd]
  refine ⟨hkept.member _ _ (openFeederSlots_root hd _ ?_) nofun, ?_, fun k hk => ?_⟩
  · rw [recordOf_countStorm, recordOf_confirming hr]
  · rw [claimed, hkept.slot (feederSlot x.settings.feeder) (Nat.add_le_add_left hf 120), openFeederSlots_slot hd, hcandidates, slotOf_countStorm,
      (countStorm_frame _ _).now, (confirming_frame key s).now]
    rfl
  · obtain ⟨q, hq, hi⟩ := openFeederSlots_member hd x.settings.feeder (s := countStorm x.settings.area (confirming key s)) (k := k)
      (by rwa [faults_countStorm]) (by rwa [hcandidates])
    exact ⟨q, hkept.member k q hq (by rw [hi]; nofun), hi⟩

/-- R123 step 3, R130: the dark circuit joins its feeder's open slot. -/
theorem claimed_feeds (hf : x.settings.feeder ≤ 64) (h : Feeds s (keyCondition key) x.settings) :
    recordOf (claimed key s) key =
      some ((confirmingRecord s key r).joined (feederSlot x.settings.feeder) (slotOf s (feederSlot x.settings.feeder)).seen) ∧
    slotOf (claimed key s) (feederSlot x.settings.feeder) = { slotOf s (feederSlot x.settings.feeder) with
      members := (slotOf s (feederSlot x.settings.feeder)).members + 1 } := by
  have hkept := claimSlots_feeds (s := confirming key s) hx (wf_confirming key hw) (recordOf_confirming hr) h
  refine ⟨hkept.member _ _ ?_ nofun, ?_⟩
  · rw [recordOf_joinSlot, if_pos rfl, recordOf_countStorm, recordOf_confirming hr, slotOf_countStorm]
    rfl
  · rw [claimed, hkept.slot (feederSlot x.settings.feeder) (Nat.add_le_add_left hf 120), slotOf_joinSlot_self, slotOf_countStorm]
    rfl

end

section
variable (hroot : ¬ Roots s (keyCondition key) x.settings) (hfeed : ¬ Feeds s (keyCondition key) x.settings)
include hroot hfeed

theorem claimed_unfed : claimed key s = areaSlots x.settings.area key (countStorm x.settings.area (confirming key s)) :=
  claimSlots_unfed (s := confirming key s) hx hroot hfeed

/-- R123: outside every area, a record that its feeder does not claim is no member. -/
theorem claimed_arealess (ha : x.settings.area = 0) {r : Record} (hr : recordOf s key = some r) :
    recordOf (claimed key s) key = some (confirmingRecord s key r) ∧ ∀ n, slotOf (claimed key s) n = slotOf s n := by
  rw [claimed_unfed hx hroot hfeed, areaSlots, if_pos ha]
  refine ⟨?_, fun n => ?_⟩
  · rw [recordOf_countStorm, recordOf_confirming hr]
  · rw [slotOf_countStorm, slotOf_confirming]

section
variable (ha : x.settings.area ≠ 0) {r : Record} (hr : recordOf s key = some r) (hi : r.incident = none)
include ha hr hi

/-- R137: the opening test opens the area's slot, which gathers the record and the area's standing records. -/
theorem claimed_storms (hw : Table.wf s.faults = true) (hq : r.state = .qualifying)
    (h : areaOpens (countStorm x.settings.area (confirming key s)) x.settings.area = true) :
    recordOf (claimed key s) key = some ((confirmingRecord s key r).joined (areaSlot x.settings.area) false) ∧
    slotOf (claimed key s) (areaSlot x.settings.area) = { (slotOf s (areaSlot x.settings.area)).storming (now s) with
      members := (slotOf s (areaSlot x.settings.area)).members + 1 + (areaCandidates s x.settings.area).length } ∧
    ∀ k ∈ areaCandidates s x.settings.area, ∃ q, recordOf (claimed key s) k = some q ∧ q.incident = some (areaSlot x.settings.area) := by
  have hperm := areaCandidates_confirming hr hw hq hi hx
  have hm : recordOf (countStorm x.settings.area (confirming key s)) key = some (confirmingRecord s key r) := by
    rw [recordOf_countStorm, recordOf_confirming hr]
  have hin (k : Nat) : k ∈ areaCandidates (countStorm x.settings.area (confirming key s)) x.settings.area ↔
      k ∈ key :: areaCandidates s x.settings.area := by
    rw [areaCandidates_countStorm, hperm.mem_iff]
  have hnow : now (countStorm x.settings.area (confirming key s)) = now s :=
    (countStorm_frame _ _).now.trans (confirming_frame key s).now
  rw [claimed_unfed hx hroot hfeed, areaSlots_opens ha hm h ((hin key).mpr List.mem_cons_self), hnow]
  refine ⟨?_, ?_, fun k hk => ?_⟩
  · have hopen : recordOf (modSlot (areaSlot x.settings.area) (Slot.storming (now s)) (countStorm x.settings.area (confirming key s))) key =
        some (confirmingRecord s key r) := hm
    rw [recordOf_joinAll, if_pos ((hin key).mpr List.mem_cons_self), hopen, slotOf_modSlot_self]
    rfl
  · rw [slotOf_joinAll_self, slotOf_modSlot_self, areaCandidates_countStorm, hperm.length_eq, slotOf_countStorm, slotOf_confirming,
      List.length_cons, Nat.add_comm (areaCandidates s x.settings.area).length 1, ← Nat.add_assoc]
    rfl
  · obtain ⟨q, hq, -⟩ := (mem_recordKeys hw _ k).mp hk
    obtain ⟨p, hp⟩ : ∃ p, recordOf (countStorm x.settings.area (confirming key s)) k = some p := by
      rw [recordOf_countStorm]
      by_cases hkey : k = key
      · rw [hkey]
        exact ⟨_, recordOf_confirming hr⟩
      · exact ⟨q, (recordOf_confirming_ne hkey s).trans hq⟩
    exact joinAll_member ((hin k).mpr (List.mem_cons_of_mem _ hk)) hp

/-- R138: an absorbing area's slot takes the record. -/
theorem claimed_absorbed (h : ¬ areaOpens (countStorm x.settings.area (confirming key s)) x.settings.area = true)
    (hv : (slotOf s (areaSlot x.settings.area)).state = .opened ∧ (slotOf s (areaSlot x.settings.area)).absorbing = true) :
    recordOf (claimed key s) key =
      some ((confirmingRecord s key r).joined (areaSlot x.settings.area) (slotOf s (areaSlot x.settings.area)).seen) ∧
    slotOf (claimed key s) (areaSlot x.settings.area) = { slotOf s (areaSlot x.settings.area) with
      members := (slotOf s (areaSlot x.settings.area)).members + 1 } := by
  have hm : recordOf (countStorm x.settings.area (confirming key s)) key = some (confirmingRecord s key r) := by
    rw [recordOf_countStorm, recordOf_confirming hr]
  rw [claimed_unfed hx hroot hfeed, areaSlots_absorbs ha hm h hi (by rwa [slotOf_countStorm]), slotOf_joinSlot_self, recordOf_joinSlot,
    if_pos rfl, hm, slotOf_countStorm]
  exact ⟨rfl, rfl⟩

omit hi in
/-- R123: any other area leaves the record outside every incident. -/
theorem claimed_left (h : ¬ areaOpens (countStorm x.settings.area (confirming key s)) x.settings.area = true)
    (hv : ¬ ((slotOf s (areaSlot x.settings.area)).state = .opened ∧ (slotOf s (areaSlot x.settings.area)).absorbing = true)) :
    recordOf (claimed key s) key = some (confirmingRecord s key r) ∧
      slotOf (claimed key s) (areaSlot x.settings.area) = slotOf s (areaSlot x.settings.area) := by
  rw [claimed_unfed hx hroot hfeed, areaSlots_leaves ha h (by rwa [slotOf_countStorm]), recordOf_countStorm, recordOf_confirming hr,
    slotOf_countStorm]
  exact ⟨rfl, rfl⟩

end

end

end

/-! ## The qualifier's way on (R95) -/

theorem tickCounted_incident (held : Bool) (r : Record) : (tickCounted held r).incident = r.incident := by
  unfold tickCounted countTick
  split
  · rfl
  · split
    · split <;> rfl
    · exact (riseEscTimer_keeps r).2.1
    · exact (riseEscTimer_keeps _).2.1
    · rfl

/-- R95: a tick that brings records to no end changes no membership. -/
theorem qualifyUpTo_incident (keys : List Nat) (s : State) (k : Nat) :
    (recordOf (qualifyUpTo keys s) k).map Record.incident = (recordOf s k).map Record.incident := by
  induction keys generalizing s with
  | nil => rfl
  | cons key keys ih =>
    unfold qualifyUpTo
    split
    · rfl
    · rename_i hend
      rw [ih, (recordTickDefault_counted (by simpa using hend) k).1]
      split
      · rename_i hk
        rw [hk, Option.map_map]
        exact congrArg (Option.map · _) (funext (tickCounted_incident _))
      · rfl

theorem qualifyOn_incident (s : State) (k : Nat) :
    (recordOf (qualifyOn s) k).map Record.incident = (recordOf s k).map Record.incident := by
  unfold qualifyOn
  split
  · rfl
  · exact qualifyUpTo_incident _ s k

theorem PassedFrame.windowOf {key : Nat} {s t : State} (h : PassedFrame key s t) (a : Nat) :
    Machine.windowOf t a = Machine.windowOf s a := by
  rw [h.frame]
  rfl

/-- What the end of a confirmation's command leaves of the claims: the record and the slots but for waiting marks, the windows, and the members. -/
structure ClaimsStand (key : Nat) (w t : State) : Prop where
  record : ∀ m, recordOf w key = some m → ∃ q, recordOf t key = some q ∧ q.unmarked = m.unmarked
  member : ∀ k n, (∃ q, recordOf w k = some q ∧ q.incident = some n) → ∃ q, recordOf t k = some q ∧ q.incident = some n
  slot : ∀ n, (slotOf t n).unmarked = (slotOf w n).unmarked
  window : ∀ a, windowOf t a = windowOf w a

section
variable {s : State} {a : Nat} {c : Condition} {r : Record} (h : StandsAt s a c r) (hx : confirmsNext r = true)
include h hx

/-- R95, R96: the command of a record at its confirm term confirms it, and the qualifier goes on. -/
theorem StandsAt.recordEvent_confirms : PassedFrame (recordKey a c) (confirmRecord (recordKey a c) s)
      (clearIfDone (Machine.recordEvent a c Ending.confirms defaultEscalateFirst s)) ∧
    ∀ k, (recordOf (clearIfDone (Machine.recordEvent a c Ending.confirms defaultEscalateFirst s)) k).map Record.incident =
      (recordOf (confirmRecord (recordKey a c) s) k).map Record.incident := by
  have hends : (endingOf r).any = true := by simp [endingOf, Ending.any, hx]
  have hstands : standsAt s (recordKey a c) Ending.confirms = true := by simp [standsAt, h.due, h.record, h.unheld, endingOf, hx]
  have hp := h.recordEvent (p := Ending.confirms) hx hends defaultEscalateFirst
  rw [recordTick_confirms h.record h.unheld _ hx] at hp
  refine ⟨hp, fun k => ?_⟩
  simp only [Machine.recordEvent, h.qualifyOn hends, hstands, if_true, recordTickBy_eq h.record, recordOf_clearIfDone, qualifyOn_incident,
    recordTick_confirms h.record h.unheld _ hx]
  rfl

theorem StandsAt.claimsStand (hs : r.state = .qualifying) : ClaimsStand (recordKey a c) (claimed (recordKey a c) s)
    (clearIfDone (Machine.recordEvent a c Ending.confirms defaultEscalateFirst s)) := by
  obtain ⟨hp, hmembers⟩ := h.recordEvent_confirms hx
  have hmarks : MarkFrame (claimed (recordKey a c) s) (confirmRecord (recordKey a c) s) := confirmRecord_marks h.record hs
  refine ⟨fun m hm => ?_, fun k n hk => ?_, fun n => ?_, fun b => ?_⟩
  · rw [hp.record]
    exact hmarks.record_some hm
  · obtain ⟨q, hq, hn⟩ := hk
    obtain ⟨p, hp, hu⟩ := hmarks.record_some hq
    have hmap := hmembers k
    rw [hp] at hmap
    obtain ⟨o, ho, hsame⟩ := Option.map_eq_some_iff.mp hmap
    exact ⟨o, ho, hsame.trans ((congrArg Record.incident hu :).trans hn)⟩
  · rw [hp.slotOf]
    exact hmarks.slot n
  · rw [hp.windowOf]
    simp only [windowOf, hmarks.storms]

end

end Sys2Proof.Machine

namespace Sys2Proof.Proofs

open Sys2Proof.Machine

/-- Settles O9. The claims are made on the state in which the record has its fields, and the command's end leaves them standing: the record roots
or joins its feeder's incident, or is left to its area, which opens, absorbs it, or lets it be. -/
theorem confirmationIsClaimed : Obligations.ConfirmationIsClaimed := by
  intro s a c r k x h hs hi hk ht hx hf64 _
  have hcx : confirmsNext r = true := (confirmsNext_iff r).mpr ⟨hs, k, hk, ht⟩
  obtain ⟨hp, -⟩ := h.recordEvent_confirms hcx
  have hstand := h.claimsStand hcx hs
  have hframe := confirmRecord_frame (recordKey a c) s
  have hasset : assetOf s (keyAsset (recordKey a c)) = some x := by rwa [keyAsset_recordKey]
  have hroots : Roots s (keyCondition (recordKey a c)) x.settings ↔ Roots s c x.settings := by rw [keyCondition_recordKey]
  have hfeeds : Feeds s (keyCondition (recordKey a c)) x.settings ↔ Feeds s c x.settings := by rw [keyCondition_recordKey]
  obtain ⟨m, hm, -⟩ := (claimSlots_claims (recordKey a c) _).record_some (recordOf_confirming h.record)
  obtain ⟨q, hq, hu⟩ := hstand.record m hm
  have hfields {p : Record} (hrecord : recordOf (claimed (recordKey a c) s) (recordKey a c) = some p) :
      q.incident = p.incident ∧ q.seen = p.seen := by
    cases hm.symm.trans hrecord
    exact ⟨(congrArg Record.incident hu :), (congrArg Record.seen hu :)⟩
  refine ⟨_, q, rfl, hq, fun area front last hwindow => ?_, fun h1 h2 h3 h4 => ?_, fun h1 h2 h3 h4 => ?_,
    ⟨fun hroot hfeed ha => ?_, fun hroot hfeed ha => ?_⟩, ?_⟩
  · exact (hstand.window area).trans (claimed_window hasset hwindow)
  · obtain ⟨hrecord, hslot, hmembers⟩ := claimed_roots hasset h.keys h.record hf64 (hroots.mpr ⟨h1, h2, h3, h4⟩)
    refine ⟨(hfields hrecord).1, (hfields hrecord).2, ?_, fun k hk => hstand.member k _ (hmembers k hk)⟩
    rw [hstand.slot, hslot]
    rfl
  · obtain ⟨hrecord, hslot⟩ := claimed_feeds hasset h.keys h.record hf64 (hfeeds.mpr ⟨h1, h2, h3, h4⟩)
    refine ⟨(hfields hrecord).1, (hfields hrecord).2.trans (Bool.false_or _), ?_⟩
    rw [hstand.slot, hslot]
    rfl
  · have hroot' := mt hroots.mp hroot
    have hfeed' := mt hfeeds.mp hfeed
    have hopens := claimed_opens_iff (key := recordKey a c) hasset
    rw [← hstand.window] at hopens
    intro v w settings
    split
    · rename_i ho
      obtain ⟨hrecord, hslot, hmembers⟩ := claimed_storms hasset hroot' hfeed' ha h.record hi h.keys hs (hopens.mpr ho)
      refine ⟨(hfields hrecord).1, (hfields hrecord).2, ?_, fun k hk => hstand.member k _ (hmembers k hk)⟩
      exact (hstand.slot _).trans (congrArg Slot.unmarked hslot)
    · rename_i ho
      have hshut := mt hopens.mp ho
      split
      · rename_i hv
        obtain ⟨hrecord, hslot⟩ := claimed_absorbed hasset hroot' hfeed' ha h.record hi hshut hv
        exact ⟨(hfields hrecord).1, (hfields hrecord).2.trans (Bool.false_or _), (hstand.slot _).trans (congrArg Slot.unmarked hslot)⟩
      · rename_i hv
        obtain ⟨hrecord, hslot⟩ := claimed_left hasset hroot' hfeed' ha h.record hshut hv
        exact ⟨(hfields hrecord).1.trans hi, (hfields hrecord).2, (hstand.slot _).trans (congrArg Slot.unmarked hslot)⟩
  · obtain ⟨hrecord, hslots⟩ := claimed_arealess hasset (mt hroots.mp hroot) (mt hfeeds.mp hfeed) ha h.record
    exact ⟨(hfields hrecord).1.trans hi, (hfields hrecord).2, fun n => (hstand.slot n).trans (congrArg Slot.unmarked (hslots n))⟩
  · rw [hp.frame]
    exact ⟨hframe.timebase, hframe.gate, hframe.directory, hframe.lines, hframe.intake, hframe.link, hframe.store, hframe.pending⟩

end Sys2Proof.Proofs
end

section
/-! PROOF. The ALERT output (R161 to R163) and the notices (R159, R160): what the primitive changes do to them, the step, and the requests that set
them. -/

namespace Sys2Proof.Machine

/-! ## The ALERT state of a queue (R161) -/

/-- R161: putting the output in the state that the queued items give makes it agree with them, whatever state it was in. -/
theorem driveAlert_agrees {d : Dispatch} (hf : d.flash.isSome = true ↔ d.alert = .flash) (hn : d.notices = false → d.notice = none) :
    AlertAgrees (driveAlert (alertFor d.queue) d) := by
  cases ha : alertFor d.queue with
  | steady => exact ⟨ha.symm, fun _ => rfl, fun h => (nomatch h), by simp [driveAlert], hn⟩
  | idle => exact ⟨ha.symm, fun h => (nomatch h), fun _ => rfl, by simp [driveAlert], hn⟩
  | flash =>
    rw [driveAlert]
    split
    · rename_i hd
      exact ⟨hd.trans ha.symm, by simp [hd], by simp [hd], hf, hn⟩
    · exact ⟨ha.symm, fun h => (nomatch h), fun h => (nomatch h), by simp, hn⟩

/-- R161: without an item with reason NEW the output is IDLE. -/
theorem alertFor_idle {q : List Item} (h : ∀ i ∈ q, i.reason ≠ .new) : alertFor q = .idle := by
  rw [alertFor, if_neg (by simpa using fun i hi hn => absurd hn (h i hi)), if_neg (by simpa using h)]

/-! ## What the primitive changes do to it -/

/-- R159: a changed head makes a notice pending only while notices are on. -/
theorem noteHead_quiet {old : Option Item} {s : State} (h : s.dispatch.notices = false → s.dispatch.notice = none) :
    (noteHead old s).dispatch.notices = false → (noteHead old s).dispatch.notice = none := by
  unfold noteHead
  split
  · rename_i hn
    simp only [Bool.and_eq_true] at hn
    exact fun hoff => absurd (hoff.symm.trans hn.1) (by decide)
  · exact h

theorem noteHead_flash (old : Option Item) (s : State) :
    (noteHead old s).dispatch.flash = s.dispatch.flash ∧ (noteHead old s).dispatch.alert = s.dispatch.alert := by
  unfold noteHead
  split <;> exact ⟨rfl, rfl⟩

/-- R153: a queue action ends with the ALERT output as its queued items give it. -/
theorem alertAgrees_queueAction {s : State} (h : AlertAgrees s.dispatch) (ts : List Thing) : AlertAgrees (queueAction ts s).dispatch := by
  have hd := handAll_dispatch ts s
  unfold queueAction
  generalize List.foldl (fun s t => handThing t s) s ts = u at hd ⊢
  obtain ⟨hflash, halert⟩ := noteHead_flash (headOf s) u
  refine driveAlert_agrees (d := (noteHead (headOf s) u).dispatch) ?_ (noteHead_quiet ?_)
  · rw [hflash, halert, hd.flash, hd.alert]; exact h.flash
  · rw [hd.notices, hd.notice]; exact h.quiet

/-- R162: the pattern goes on in FLASH alone, where neither pin level nor settings are bound to the state. -/
theorem alertAgrees_flashStep {d : Dispatch} (h : AlertAgrees d) : AlertAgrees (flashStep d) := by
  unfold flashStep
  split
  · rename_i ha hp
    have steady : d.alert ≠ .steady := by simp [ha]
    have idle : d.alert ≠ .idle := by simp [ha]
    split
    · exact ⟨h.derived, fun k => absurd k steady, fun k => absurd k idle, by simp [ha], h.quiet⟩
    · exact ⟨h.derived, fun k => absurd k steady, fun k => absurd k idle, by simp [newPeriod, ha], h.quiet⟩
  · exact h

/-- R163: new settings are driven in the state that the output is in, which is the one its queued items give. -/
theorem alertAgrees_applyAlert {d : Dispatch} (h : AlertAgrees d) (v : AlertSettings) : AlertAgrees (applyAlert v d) := by
  have hd := driveAlert_agrees (d := { d with alertSettings := v }) h.flash h.quiet
  rwa [← h.derived] at hd

/-- R160: switching notices off discards the pending one. -/
theorem alertAgrees_applyNotices {s : State} (h : AlertAgrees s.dispatch) (v : Bool) : AlertAgrees (applyNotices v s).dispatch := by
  refine ⟨h.derived, h.steady, h.idle, h.flash, fun (hv : v = false) => ?_⟩
  subst hv
  show (if false = s.dispatch.notices then s.dispatch.notice else none) = none
  split
  · rename_i hn
    exact h.quiet hn.symm
  · rfl

/-- R164: an empty queue leaves the output IDLE. -/
theorem alertAgrees_loadDispatch (v : AlertSettings) (notices : Bool) : AlertAgrees (loadDispatch v notices) :=
  ⟨rfl, fun h => (nomatch h), fun _ => rfl, by simp [loadDispatch], fun _ => rfl⟩

/-- Each primitive change of the state keeps the ALERT output as its queued items give it. -/
theorem alertAgrees_closed : Closed (fun s => AlertAgrees s.dispatch) where
  gate _ h := h
  station _ h := h
  asset h := h
  recordInsert _ _ _ h := h
  recordErase h := h
  record _ h := h
  slot _ h := h
  window _ h := h
  queue h := alertAgrees_queueAction h _
  flags h := h
  timebase _ h := h
  stationInsert _ h := h
  stationErase h := h
  assetInsert h := h
  assetErase h := h
  profiles h := h
  area h := h
  line _ h := h
  intake _ h := h
  noticeTaken h := ⟨h.derived, h.steady, h.idle, h.flash, fun _ => rfl⟩
  flash h := alertAgrees_flashStep h
  alert h := alertAgrees_applyAlert h _
  notices h := alertAgrees_applyNotices h _
  link _ h := h
  saveCount _ _ h := h
  saveEnd h := h
  saveStart h := h
  saveDone h := by
    unfold completeSave
    split <;> exact h
  tick h := h
  pending h := h
  powerOn _ := alertAgrees_loadDispatch _ _
  restart {s} _ :=
    have h := alertAgrees_loadDispatch s.dispatch.alertSettings s.dispatch.notices
    ⟨h.derived, h.steady, h.idle, h.flash, fun (hoff : s.dispatch.notices = false) => by
      show (if s.dispatch.notices = true then some none else none) = none
      rw [hoff]; rfl⟩
  factory _ := alertAgrees_loadDispatch {} false

/-! ## The requests (R160, R163) -/

/-- R163: a body with its fields in range is read. -/
theorem parseAlert_eq {b : List Byte} {v : AlertSettings} (ha : decEnum booleans (u8 b 0) = some v.activeHigh) (hp : u16 b 1 = v.period)
    (ho : u16 b 3 = v.onTime) (h1 : 200 ≤ v.period) (h2 : v.period ≤ 5000) (h3 : 100 ≤ v.onTime) (h4 : v.onTime ≤ 5000) :
    parseAlert b = some v := by
  simp [parseAlert, ha, hp, ho, h1, h2, h3, h4]

/-- R163: in FLASH the settings wait for the next period. -/
theorem applyAlert_flash {d : Dispatch} (h : d.alert = .flash) (v : AlertSettings) : applyAlert v d = { d with alertSettings := v } := by
  cases d; cases h; rfl

theorem applyAlert_steady {d : Dispatch} (h : d.alert = .steady) (v : AlertSettings) :
    applyAlert v d = { d with alertSettings := v, pinHigh := v.activeHigh, flash := none } := by
  cases d; cases h; rfl

theorem applyAlert_idle {d : Dispatch} (h : d.alert = .idle) (v : AlertSettings) :
    applyAlert v d = { d with alertSettings := v, pinHigh := !v.activeHigh, flash := none } := by
  cases d; cases h; rfl

/-- R162: in FLASH an on-phase that is shorter than its period is followed by the off-phase, any other phase by a new period. -/
theorem flashStep_eq {d : Dispatch} {p : FlashPeriod} (ha : d.alert = .flash) (hp : d.flash = some p) :
    flashStep d = if p.onPhase = true ∧ p.settings.onTime < p.settings.period then
        { d with pinHigh := !p.settings.activeHigh, flash := some { p with onPhase := false } }
      else newPeriod d := by
  cases d; cases ha; cases hp
  simp only [flashStep, Bool.and_eq_true, decide_eq_true_eq]

/-- R160: a byte that is 0 or 1 switches the notices. -/
theorem ownSetNotices_taken {b : List Byte} {v : Bool} (h : u8 b 0 = v.toNat) (s : State) : ownSetNotices b s = (applyNotices v s, ok) := by
  cases v <;> simp [ownSetNotices, h, decEnum, booleans]

theorem ownSetNotices_refused {b : List Byte} (h : 2 ≤ u8 b 0) (s : State) : ownSetNotices b s = (s, refuse .badValue) := by
  have hn : decEnum booleans (u8 b 0) = none := List.getElem?_eq_none h
  rw [ownSetNotices, hn]

/-- R160: without a change the pending notice is left. -/
theorem applyNotices_same (s : State) : applyNotices s.dispatch.notices s = s := by
  simp [applyNotices, modDispatch]

end Sys2Proof.Machine

namespace Sys2Proof.Proofs

open Sys2Proof.Machine

/-- Settles O57: agreement is closed under the primitive changes, so a step keeps it; and without a NEW item the derived state is IDLE. -/
theorem stepKeepsAlertDerived : Obligations.StepKeepsAlertDerived :=
  ⟨fun _ _ h hs => step_closed alertAgrees_closed h hs, fun _ h hq => h.idle (h.derived.trans (alertFor_idle hq))⟩

/-- Settles O53. SET-ALERT drives the pin by the state the output is in; the flash pattern's next phase is one test. -/
theorem alertSettingsAndFlashPattern : Obligations.AlertSettingsAndFlashPattern := by
  refine ⟨fun s f v h ha hp ho h1 h2 h3 h4 => ?_, fun s p hs halert hp => ?_⟩
  · have taken : ownSetAlert f.body s = (modDispatch (applyAlert v) s, ok) := by
      rw [ownSetAlert, parseAlert_eq ha hp ho h1 h2 h3 h4]
    rw [exec_taken h taken, modDispatch]
    cases hd : s.dispatch.alert with
    | steady => rw [applyAlert_steady hd]
    | idle => rw [applyAlert_idle hd]
    | flash => rw [applyAlert_flash hd]
  · show Host.Outcome.next (modDispatch flashStep (settle s)) = _
    rw [settle_of_settled hs, modDispatch, flashStep_eq halert hp]
    rfl

/-- Settles O54. The request's byte is OFF or ON, and a notice is made or discarded where it differs from the setting. -/
theorem setNoticesSwitchesNotices : Obligations.SetNoticesSwitchesNotices := by
  intro s f h
  refine ⟨fun hb hn => ?_, fun hb hn => ?_, fun hsame => ?_, fun hb => exec_refused h (ownSetNotices_refused hb s)⟩
  · rw [exec_taken h (ownSetNotices_taken (v := true) hb s), applyNotices, modDispatch, hn]; rfl
  · rw [exec_taken h (ownSetNotices_taken (v := false) hb s), applyNotices, modDispatch, hn]; rfl
  · have hb : u8 f.body 0 = s.dispatch.notices.toNat := by
      obtain ⟨hb, hn⟩ | ⟨hb, hn⟩ := hsame <;> rw [hb, hn] <;> rfl
    rw [exec_taken h (ownSetNotices_taken hb s), applyNotices_same]

end Sys2Proof.Proofs
end

section
/-! PROOF. The rank order and the waiting marks (R147, R148), and the placing of an item (R150). -/

namespace Sys2Proof.Machine

/-! ## The rank order (R147) -/

/-- R147 keys 3 and 4 as one key: incidents first, then by number. -/
def Thing.rank : Thing → ℕ ×ₗ ℕ
  | .incident n => toLex (0, n)
  | .record key => toLex (1, key)

/-- R147: what an item is ranked by, first key first. -/
def Item.rank (i : Item) : ℕ ×ₗ ℕ ×ₗ ℕ ×ₗ ℕ := toLex (i.rankClass, toLex (i.orderTime, i.thing.rank))

theorem thingAhead_iff (t u : Thing) : thingAhead t u = true ↔ t.rank < u.rank := by
  cases t <;> cases u <;> simp [thingAhead, Thing.rank, Prod.Lex.toLex_lt_toLex]

/-- R147: one item ranks ahead of another when its keys come first. -/
theorem Item.ahead_iff (i j : Item) : i.ahead j = true ↔ i.rank < j.rank := by
  simp [Item.ahead, Item.rank, Prod.Lex.toLex_lt_toLex, thingAhead_iff]

theorem Thing.rank_injective : Function.Injective Thing.rank := by
  intro t u h
  cases t <;> cases u <;> simp_all [Thing.rank]

/-- R147: items of different things do not rank alike. -/
theorem Item.rank_ne {i j : Item} (h : i.thing ≠ j.thing) : i.rank ≠ j.rank := by
  intro hr
  have keys := (Prod.mk.inj (toLex.injective hr)).2
  exact h (Thing.rank_injective (Prod.mk.inj (toLex.injective keys)).2)

theorem Item.ahead_trans {i j k : Item} (h : i.ahead j = true) (h' : j.ahead k = true) : i.ahead k = true := by
  rw [Item.ahead_iff] at *
  exact h.trans h'

/-- R147: of the items of different things one is ahead of the other. -/
theorem Item.ahead_of_not {i j : Item} (hne : i.thing ≠ j.thing) (h : ¬ i.ahead j = true) : j.ahead i = true := by
  rw [Item.ahead_iff] at *
  exact lt_of_le_of_ne (not_lt.mp h) (Item.rank_ne hne.symm)

/-! ## The insertion of an item (R150) -/

theorem insertItem_perm (i : Item) (q : List Item) : (insertItem i q).Perm (i :: q) := by
  induction q with
  | nil => exact .refl _
  | cons j q ih =>
    rw [insertItem]
    split
    · exact .refl _
    · exact (ih.cons j).trans (.swap i j q)

theorem mem_insertItem {i x : Item} {q : List Item} : x ∈ insertItem i q ↔ x = i ∨ x ∈ q :=
  (insertItem_perm i q).mem_iff.trans List.mem_cons

/-- R148: items in rank order, one for each thing. -/
structure RankOrdered (q : List Item) : Prop where
  ranked : q.Pairwise (fun x y => x.ahead y = true)
  things : (q.map Item.thing).Nodup

/-- R150: an item whose thing has none in a ranked list goes in at its rank. -/
theorem insertItem_ranked {i : Item} {q : List Item} (h : q.Pairwise (fun x y => x.ahead y = true)) (hi : ∀ x ∈ q, x.thing ≠ i.thing) :
    (insertItem i q).Pairwise (fun x y => x.ahead y = true) := by
  induction q with
  | nil => exact List.pairwise_singleton _ _
  | cons j q ih =>
    obtain ⟨hj, hq⟩ := List.pairwise_cons.mp h
    obtain ⟨hji, hqi⟩ := List.forall_mem_cons.mp hi
    rw [insertItem]
    split
    · rename_i hij
      exact List.pairwise_cons.mpr ⟨List.forall_mem_cons.mpr ⟨hij, fun x hx => Item.ahead_trans hij (hj x hx)⟩, h⟩
    · rename_i hij
      refine List.pairwise_cons.mpr ⟨fun x hx => ?_, ih hq hqi⟩
      rcases mem_insertItem.mp hx with rfl | hx
      · exact Item.ahead_of_not hji.symm hij
      · exact hj x hx

theorem RankOrdered.insert {i : Item} {q : List Item} (h : RankOrdered q) (hi : ∀ x ∈ q, x.thing ≠ i.thing) :
    RankOrdered (insertItem i q) := by
  refine ⟨insertItem_ranked h.ranked hi, ?_⟩
  rw [((insertItem_perm i q).map Item.thing).nodup_iff, List.map_cons, List.nodup_cons]
  exact ⟨fun hm => by obtain ⟨x, hx, hxi⟩ := List.mem_map.mp hm; exact hi x hx hxi, h.things⟩

theorem RankOrdered.sublist {p q : List Item} (h : RankOrdered q) (hs : p.Sublist q) : RankOrdered p :=
  ⟨h.ranked.sublist hs, h.things.sublist (hs.map _)⟩

/-! ## The best-ranked item (R148) -/

theorem bestItem_eq_none {l : List Item} : bestItem l = none ↔ l = [] := by
  cases l with
  | nil => simp [bestItem]
  | cons i l =>
    rw [bestItem]
    split
    · simp
    · split <;> simp

/-- R148: the best-ranked item is of the list, and none of the list ranks ahead of it. -/
theorem bestItem_spec {l : List Item} {b : Item} (h : bestItem l = some b) : b ∈ l ∧ ∀ c ∈ l, b.rank ≤ c.rank := by
  induction l generalizing b with
  | nil => simp [bestItem] at h
  | cons i l ih =>
    rw [bestItem] at h
    split at h
    · rename_i hn
      obtain rfl := Option.some.inj h
      rw [bestItem_eq_none.mp hn]
      exact ⟨List.mem_singleton_self _, fun c hc => List.mem_singleton.mp hc ▸ le_rfl⟩
    · rename_i j hj
      obtain ⟨hmem, hleast⟩ := ih hj
      split at h <;> rename_i hji <;> rw [Item.ahead_iff] at hji <;> obtain rfl := Option.some.inj h
      · exact ⟨List.mem_cons_of_mem _ hmem, List.forall_mem_cons.mpr ⟨hji.le, hleast⟩⟩
      · exact ⟨List.mem_cons_self, List.forall_mem_cons.mpr ⟨le_rfl, fun c hc => (not_lt.mp hji).trans (hleast c hc)⟩⟩

theorem bestItem_of_bestOf {l : List Item} {b : Item} (h : BestOf b l) : bestItem l = some b := by
  obtain ⟨hmem, hbest⟩ := h
  cases hc : bestItem l with
  | none => rw [bestItem_eq_none.mp hc] at hmem; exact nomatch hmem
  | some c =>
    obtain ⟨hc, hleast⟩ := bestItem_spec hc
    by_cases hcb : c = b
    · rw [hcb]
    · exact absurd ((Item.ahead_iff b c).mp (hbest c hc hcb)) (not_lt.mpr (hleast b hmem))

/-! ## The waiting marks (R148) -/

/-- A thing that can hold a waiting mark: a slot, or a record of the fault table. -/
def Present (s : State) (t : Thing) : Prop := ∀ key, t = .record key → (recordOf s key).isSome = true

@[simp] theorem markOf_setQueue (q : List Item) (s : State) (t : Thing) : markOf (setQueue q s) t = markOf s t := by cases t <;> rfl

theorem markOf_setMark_ne {t x : Thing} (h : x ≠ t) (m : Option Reason) (s : State) : markOf (setMark m t s) x = markOf s x := by
  cases t with
  | record key => cases x with
    | record k => exact congrArg (·.bind Record.waiting) (recordOf_modRecord_ne _ s fun hk => h (congrArg Thing.record hk))
    | incident n => rfl
  | incident n => cases x with
    | record k => rfl
    | incident k => exact congrArg Slot.waiting (slotOf_modSlot_ne _ s fun hk => h (congrArg Thing.incident hk))

theorem markOf_setMark_record (m : Option Reason) (key : Nat) (s : State) :
    markOf (setMark m (.record key) s) (.record key) = (recordOf s key).bind fun _ => m := by
  show (recordOf (modRecord key _ s) key).bind Record.waiting = _
  rw [recordOf_modRecord_self]
  cases recordOf s key <;> rfl

theorem markOf_setMark_incident (m : Option Reason) (n : Nat) (s : State) : markOf (setMark m (.incident n) s) (.incident n) = m :=
  congrArg Slot.waiting (slotOf_modSlot_self n _ s)

/-- A thing that can hold a mark holds the one it is given. -/
theorem markOf_setMark_self {s : State} {t : Thing} (h : Present s t) (m : Option Reason) : markOf (setMark m t s) t = m := by
  cases t with
  | record key =>
    obtain ⟨r, hr⟩ := Option.isSome_iff_exists.mp (h key rfl)
    rw [markOf_setMark_record, hr]; rfl
  | incident n => exact markOf_setMark_incident m n s

/-- A mark that a thing is given is the only one it can hold then. -/
theorem markOf_setMark_mem {s : State} {t : Thing} {m : Option Reason} {r : Reason} (h : markOf (setMark m t s) t = some r) : m = some r := by
  cases t with
  | record key =>
    rw [markOf_setMark_record] at h
    obtain ⟨_, _, h⟩ := Option.bind_eq_some_iff.mp h
    exact h
  | incident n => rwa [markOf_setMark_incident] at h

@[simp] theorem markOf_setMark_none (t : Thing) (s : State) : markOf (setMark none t s) t = none :=
  Option.eq_none_iff_forall_ne_some.mpr fun _ h => nomatch markOf_setMark_mem h

/-- Clearing a mark that is clear changes no mark. -/
theorem markOf_setMark_clear {s : State} {t : Thing} (h : markOf s t = none) (x : Thing) : markOf (setMark none t s) x = markOf s x := by
  by_cases hx : x = t
  · rw [hx, markOf_setMark_none, h]
  · exact markOf_setMark_ne hx _ s

/-- A thing with a mark can hold one. -/
theorem present_of_mark {s : State} {t : Thing} {r : Reason} (h : markOf s t = some r) : Present s t := by
  rintro key rfl
  obtain ⟨v, hv, _⟩ := Option.bind_eq_some_iff.mp h
  rw [hv]; rfl

/-! ## The last item of a ranked list -/

/-- R148: the last item's thing has no other item. -/
theorem RankOrdered.last_thing {q : List Item} {last : Item} (h : RankOrdered q) (hl : q.getLast? = some last) :
    ∀ x ∈ q.dropLast, x.thing ≠ last.thing := by
  intro x hx hxl
  have hq := List.dropLast_append_getLast? last hl
  have hn := h.things
  rw [← hq, List.map_append, List.nodup_append] at hn
  exact hn.2.2 _ (List.mem_map_of_mem hx) _ (List.mem_map_of_mem (List.mem_singleton_self last)) hxl

/-! ## The placing of an item (R150) -/

/-- R150: into a queue with room the item is inserted. -/
theorem placeItem_room {i : Item} {s : State} (h : s.dispatch.queue.length < Config.maxQueue) :
    placeItem i s = setQueue (insertItem i s.dispatch.queue) s := if_pos h

/-- R150: in a full queue an item that ranks ahead of the last one displaces it. -/
theorem placeItem_displaces {i last : Item} {s : State} (h : ¬ s.dispatch.queue.length < Config.maxQueue)
    (hl : s.dispatch.queue.getLast? = some last) (ha : i.ahead last = true) :
    placeItem i s = setMark (some last.reason) last.thing (setQueue (insertItem i s.dispatch.queue.dropLast) s) := by
  simp only [placeItem, if_neg h, hl, if_pos ha]

/-- R150: in a full queue an item that does not rank ahead of the last one waits. -/
theorem placeItem_waits {i last : Item} {s : State} (h : ¬ s.dispatch.queue.length < Config.maxQueue)
    (hl : s.dispatch.queue.getLast? = some last) (ha : ¬ i.ahead last = true) : placeItem i s = setMark (some i.reason) i.thing s := by
  simp only [placeItem, if_neg h, hl, if_neg ha]

/-- A full queue has a last item. -/
theorem exists_last_of_full {q : List Item} (h : ¬ q.length < Config.maxQueue) : ∃ last, q.getLast? = some last := by
  cases q with
  | nil => exact absurd (show 0 < Config.maxQueue by decide) h
  | cons i q => exact ⟨_, List.getLast?_eq_some_getLast (List.cons_ne_nil i q)⟩

/-- R150: the queue that placing an item leaves. -/
theorem placeItem_queue (i : Item) (s : State) : (placeItem i s).dispatch.queue = s.dispatch.queue ∨
    ∃ p, p.Sublist s.dispatch.queue ∧ (placeItem i s).dispatch.queue = insertItem i p := by
  by_cases h : s.dispatch.queue.length < Config.maxQueue
  · exact .inr ⟨_, .refl _, by rw [placeItem_room h]; rfl⟩
  · obtain ⟨last, hl⟩ := exists_last_of_full h
    by_cases ha : i.ahead last = true
    · exact .inr ⟨_, List.dropLast_sublist _, by rw [placeItem_displaces h hl ha, setMark_dispatch]; rfl⟩
    · exact .inl (by rw [placeItem_waits h hl ha, setMark_dispatch])

end Sys2Proof.Machine

namespace Sys2Proof.Proofs

open Sys2Proof.Machine

/-- Settles O51: with room the item goes in at its rank; in a full queue it is set against the last one. -/
theorem placingAnItemKeepsRank : Obligations.PlacingAnItemKeepsRank := by
  intro s i hranked hfresh
  refine ⟨fun hroom => ?_, ?_, fun hfull last hl => ?_⟩
  · rw [placeItem_room (show _ < Config.maxQueue from hroom)]
    exact ⟨insertItem_perm i _, fun t => markOf_setQueue _ s t⟩
  · obtain hq | ⟨p, hp, hq⟩ := placeItem_queue i s <;> rw [hq]
    · exact hranked
    · exact insertItem_ranked (hranked.sublist hp) fun x hx => hfresh x (hp.subset hx)
  · have full : ¬ s.dispatch.queue.length < Config.maxQueue := by rw [hfull]; decide
    split
    · rename_i ha
      rw [placeItem_displaces full hl ha, setMark_dispatch]
      exact ⟨insertItem_perm i _, fun t ht => markOf_setMark_ne ht _ _, fun hp => by rw [markOf_setMark_self]; exact hp⟩
    · rename_i ha
      rw [placeItem_waits full hl ha, setMark_dispatch]
      exact ⟨rfl, fun t ht => markOf_setMark_ne ht _ s, fun hp => markOf_setMark_self hp _⟩

end Sys2Proof.Proofs
end

section
/-! PROOF. What the queue and the waiting marks hold (R145, R147, R148): the order of the queue in terms of its items and of the marks, the standing of
a thing, and the changes of one thing's standing that a queue action is made of. -/

namespace Sys2Proof.Machine

/-! ## Waiting items (R148) -/

@[simp] theorem mkItem_thing (s : State) (t : Thing) (r : Reason) : (mkItem s t r).thing = t := by
  unfold mkItem
  split <;> split <;> rfl

@[simp] theorem mkItem_reason (s : State) (t : Thing) (r : Reason) : (mkItem s t r).reason = r := by
  unfold mkItem
  split <;> split <;> rfl

/-- The tables that hold the waiting marks have their keys rising. -/
structure TablesRise (s : State) : Prop where
  records : Table.wf s.faults = true
  slots : Table.wf s.incidents.slots = true

theorem tablesRise_closed : MarkClosed TablesRise where
  mark {m t s} h := by
    cases t with
    | record key => exact ⟨Table.wf_modify h.records key fun r => { r with waiting := m }, h.slots⟩
    | incident n => exact ⟨h.records, Table.wf_store h.slots n { slotOf s n with waiting := m }⟩
  queue _ h := ⟨h.records, h.slots⟩

/-- R148: an item waits when its thing is marked with its reason; its rank is that of the thing as it stands. -/
theorem mem_waitingItems {s : State} (h : TablesRise s) {i : Item} :
    i ∈ waitingItems s ↔ markOf s i.thing = some i.reason ∧ mkItem s i.thing i.reason = i := by
  simp only [waitingItems, List.mem_append, List.mem_filterMap, Prod.exists, Option.map_eq_some_iff]
  constructor
  · rintro (⟨n, v, hv, r, hr, rfl⟩ | ⟨key, v, hv, r, hr, rfl⟩) <;> rw [mkItem_thing, mkItem_reason]
    · exact ⟨by rw [markOf, slotOf, Table.lookup, Table.find_of_mem h.slots hv]; exact hr, rfl⟩
    · exact ⟨by rw [markOf, recordOf, Table.find_of_mem h.records hv]; exact hr, rfl⟩
  · rintro ⟨hm, hi⟩
    cases ht : i.thing with
    | record key =>
      rw [ht] at hm hi
      obtain ⟨v, hv, hr⟩ := Option.bind_eq_some_iff.mp hm
      exact .inr ⟨key, v, Table.mem_of_find hv, i.reason, hr, hi⟩
    | incident n =>
      rw [ht] at hm hi
      rw [markOf, slotOf, Table.lookup] at hm
      cases hf : Table.find s.incidents.slots n with
      | none => rw [hf] at hm; exact nomatch hm
      | some v => exact .inl ⟨n, v, Table.mem_of_find hf, i.reason, by rwa [hf] at hm, hi⟩

theorem waitingItems_eq_nil {s : State} (h : TablesRise s) : waitingItems s = [] ↔ ∀ t, markOf s t = none := by
  rw [List.eq_nil_iff_forall_not_mem]
  refine ⟨fun hn t => Option.eq_none_iff_forall_ne_some.mpr fun r hr => hn (mkItem s t r) ?_, fun hn i hi => ?_⟩
  · rw [mem_waitingItems h, mkItem_thing, mkItem_reason]
    exact ⟨hr, rfl⟩
  · exact nomatch (hn i.thing).symm.trans ((mem_waitingItems h).mp hi).1

/-! ## What marks leave of a thing -/

theorem needOf_record (s : State) (key : Nat) : needOf s (.record key) = ((recordOf s key).map Record.unmarked).bind recordNeed := by
  rw [needOf]
  cases recordOf s key <;> rfl

theorem MarkFrame.needOf {s u : State} (h : MarkFrame s u) (t : Thing) : Machine.needOf u t = Machine.needOf s t := by
  cases t with
  | record key => rw [needOf_record, needOf_record, h.record]
  | incident n =>
    show slotNeed (slotOf u n).unmarked = slotNeed (slotOf s n).unmarked
    rw [h.slot]

/-- R145: a record that is not in the fault table needs no item. -/
theorem present_of_need {s : State} {t : Thing} {r : Reason} (h : needOf s t = some r) : Present s t := by
  rintro key rfl
  obtain ⟨v, hv, _⟩ := Option.bind_eq_some_iff.mp h
  rw [hv]; rfl

theorem MarkFrame.present {s u : State} (h : MarkFrame s u) {t : Thing} : Present u t ↔ Present s t := by
  refine forall_congr' fun key => imp_congr_right fun _ => ?_
  rw [← Option.isSome_map (f := Record.unmarked), h.record, Option.isSome_map]

theorem MarkFrame.slotPriority {s u : State} (h : MarkFrame s u) (n : Nat) : Machine.slotPriority u n = Machine.slotPriority s n := by
  simp only [Machine.slotPriority, stationOf, supplier, areaOf, h.directory]

theorem MarkFrame.recordPriority {s u : State} (h : MarkFrame s u) (key : Nat) {q r : Record} (hq : q.unmarked = r.unmarked) :
    Machine.recordPriority u key q = Machine.recordPriority s key r := by
  have hescalated : q.escalated = r.escalated := congrArg (fun v => v.escalated) hq
  simp only [Machine.recordPriority, assetPriority, assetOf, h.directory, hescalated]

/-- R147: a thing's item asks nothing about its waiting mark. -/
theorem MarkFrame.mkItem {s u : State} (h : MarkFrame s u) (t : Thing) (r : Reason) : Machine.mkItem u t r = Machine.mkItem s t r := by
  cases t with
  | record key =>
    cases hs : recordOf s key with
    | none => simp only [Machine.mkItem, hs, h.record_none hs]
    | some v =>
      obtain ⟨q, hq, hu⟩ := h.record_some hs
      have hconfirmed : q.confirmed = v.confirmed := congrArg (fun v => v.confirmed) hu
      have hrestored : q.restored = v.restored := congrArg (fun v => v.restored) hu
      cases r <;> simp only [Machine.mkItem, hs, hq, h.recordPriority key hu, hconfirmed, hrestored]
  | incident n =>
    have hopened : (slotOf u n).openedAt = (slotOf s n).openedAt := congrArg (fun v => v.openedAt) (h.slot n)
    have hrestored : (slotOf u n).restoredAt = (slotOf s n).restoredAt := congrArg (fun v => v.restoredAt) (h.slot n)
    cases r <;> simp only [Machine.mkItem, h.slotPriority, hopened, hrestored]

/-- R148: with the marks alike, the same items wait. -/
theorem MarkFrame.mem_waitingItems {s u : State} (h : MarkFrame s u) (hs : TablesRise s) (hu : TablesRise u)
    (hm : ∀ x, markOf u x = markOf s x) {i : Item} : i ∈ waitingItems u ↔ i ∈ waitingItems s := by
  rw [Machine.mem_waitingItems hu, Machine.mem_waitingItems hs, hm, h.mkItem]

theorem bestOf_congr {l l' : List Item} (h : ∀ i, i ∈ l ↔ i ∈ l') {b : Item} : BestOf b l ↔ BestOf b l' := by
  simp only [BestOf, h]

/-! ## The order of the queue (R147, R148, R151) -/

/-- R147, R148, R151: a queue and waiting marks that suit each other. -/
structure Orderly (q : List Item) (m : Thing → Option Reason) : Prop extends RankOrdered q where
  apart : ∀ i ∈ q, m i.thing = none
  bound : q.length ≤ Config.maxQueue
  waits : q.length < Config.maxQueue → ∀ t, m t = none

/-- The order of the queue is a matter of its items and of the marks. -/
theorem queueOrdered_iff (s : State) : QueueOrdered s ↔ TablesRise s ∧ Orderly s.dispatch.queue (markOf s) := by
  constructor
  · rintro ⟨hr, hs, ranked, things, apart, bound, waits⟩
    exact ⟨⟨hr, hs⟩, ⟨ranked, things⟩, apart, bound, fun h => (waitingItems_eq_nil ⟨hr, hs⟩).mp (waits h)⟩
  · rintro ⟨ht, ⟨ranked, things⟩, apart, bound, waits⟩
    exact ⟨ht.records, ht.slots, ranked, things, apart, bound, fun h => (waitingItems_eq_nil ht).mpr (waits h)⟩

theorem QueueOrdered.tables {s : State} (h : QueueOrdered s) : TablesRise s := ((queueOrdered_iff s).mp h).1
theorem QueueOrdered.orderly {s : State} (h : QueueOrdered s) : Orderly s.dispatch.queue (markOf s) := ((queueOrdered_iff s).mp h).2

/-- Items may go, and marks be set and cleared, where no queued thing is marked and none is while there is room. -/
theorem Orderly.keep {p q : List Item} {m m' : Thing → Option Reason} (h : Orderly q m) (hp : p.Sublist q)
    (apart : ∀ x ∈ p, m' x.thing = none) (waits : p.length < Config.maxQueue → ∀ t, m' t = none) : Orderly p m' :=
  ⟨h.toRankOrdered.sublist hp, apart, hp.length_le.trans h.bound, waits⟩

/-- R150: an item may come in where there is room for it, beside items that are left. -/
theorem Orderly.insert {p q : List Item} {m m' : Thing → Option Reason} {i : Item} (h : Orderly q m) (hp : p.Sublist q)
    (room : p.length < Config.maxQueue) (fresh : ∀ x ∈ p, x.thing ≠ i.thing) (hi : m' i.thing = none) (apart : ∀ x ∈ p, m' x.thing = none)
    (waits : p.length + 1 < Config.maxQueue → ∀ t, m' t = none) : Orderly (insertItem i p) m' := by
  refine ⟨(h.toRankOrdered.sublist hp).insert fresh, fun x hx => ?_, ?_, ?_⟩
  · rcases mem_insertItem.mp hx with rfl | hx
    · exact hi
    · exact apart x hx
  · rwa [insertItem_length]
  · rwa [insertItem_length]

/-! ## The queued item of a thing -/

theorem queuedItem_eq_none {s : State} {t : Thing} : queuedItem s t = none ↔ ∀ i ∈ s.dispatch.queue, i.thing ≠ t := by
  simp [queuedItem]

theorem queuedItem_mem {s : State} {t : Thing} {i : Item} (h : queuedItem s t = some i) : i ∈ s.dispatch.queue ∧ i.thing = t :=
  ⟨List.mem_of_find?_eq_some h, by simpa using List.find?_some h⟩

/-- R148: the queued item of a thing is its only one. -/
theorem queuedItem_of_mem {s : State} (h : RankOrdered s.dispatch.queue) {i : Item} (hi : i ∈ s.dispatch.queue) :
    queuedItem s i.thing = some i := by
  cases hf : queuedItem s i.thing with
  | none => exact absurd rfl (queuedItem_eq_none.mp hf i hi)
  | some j =>
    obtain ⟨hj, hji⟩ := queuedItem_mem hf
    rw [List.inj_on_of_nodup_map h.things hj hi hji]

/-- The items of a list but a thing's. -/
def itemsBut (t : Thing) (q : List Item) : List Item := q.filter (fun i => decide (i.thing ≠ t))

theorem mem_itemsBut {t : Thing} {q : List Item} {i : Item} : i ∈ itemsBut t q ↔ i ∈ q ∧ i.thing ≠ t := by simp [itemsBut]

theorem itemsBut_sublist (t : Thing) (q : List Item) : (itemsBut t q).Sublist q := List.filter_sublist

/-- R148: without a queued thing's item the queue is one shorter. -/
theorem itemsBut_length {q : List Item} (h : RankOrdered q) {i : Item} (hi : i ∈ q) : (itemsBut i.thing q).length + 1 = q.length := by
  have herase : ((q.map Item.thing).erase i.thing).length = (itemsBut i.thing q).length := by
    rw [h.things.erase_eq_filter, List.filter_map, List.length_map]
    congr 1
    refine List.filter_congr fun x _ => ?_
    by_cases hx : x.thing = i.thing <;> simp [hx]
  have hmem : i.thing ∈ q.map Item.thing := List.mem_map_of_mem hi
  have hpos : 0 < q.length := List.length_pos_of_mem hi
  rw [← herase, List.length_erase_of_mem hmem, List.length_map]
  omega

/-! ## Standing (R145) -/

theorem standingOf_eq_none {s : State} {t : Thing} : standingOf s t = .none ↔ queuedItem s t = none ∧ markOf s t = none := by
  unfold standingOf
  cases queuedItem s t <;> cases markOf s t <;> simp

theorem standingOf_eq_queued {s : State} {t : Thing} {r : Reason} :
    standingOf s t = .queued r ↔ ∃ i, queuedItem s t = some i ∧ i.reason = r := by
  unfold standingOf
  cases queuedItem s t <;> cases markOf s t <;> simp

theorem standingOf_eq_waiting {s : State} {t : Thing} {r : Reason} :
    standingOf s t = .waiting r ↔ queuedItem s t = none ∧ markOf s t = some r := by
  unfold standingOf
  cases queuedItem s t <;> cases markOf s t <;> simp

/-- R145: a thing is held in the queue with a reason, be it queued or waiting. -/
def Held (s : State) (t : Thing) (r : Reason) : Prop := (∃ i ∈ s.dispatch.queue, i.thing = t ∧ i.reason = r) ∨ markOf s t = some r

theorem held_iff {s : State} (h : Orderly s.dispatch.queue (markOf s)) {t : Thing} {r : Reason} :
    Held s t r ↔ standingOf s t = .queued r ∨ standingOf s t = .waiting r := by
  rw [standingOf_eq_queued, standingOf_eq_waiting]
  constructor
  · rintro (⟨i, hi, rfl, rfl⟩ | hm)
    · exact .inl ⟨i, queuedItem_of_mem h.toRankOrdered hi, rfl⟩
    · refine .inr ⟨queuedItem_eq_none.mpr fun i hi hit => ?_, hm⟩
      rw [← hit, h.apart i hi] at hm
      exact nomatch hm
  · rintro (⟨i, hi, rfl⟩ | ⟨_, hm⟩)
    · exact .inl ⟨i, (queuedItem_mem hi).1, (queuedItem_mem hi).2, rfl⟩
    · exact .inr hm

/-- R145, R149: the thing has the standing that it needs. -/
def Serves (s : State) (t : Thing) : Prop := ∀ r, Held s t r ↔ needOf s t = some r

theorem Serves.standing_none {s : State} {t : Thing} (h : Serves s t) (ho : Orderly s.dispatch.queue (markOf s)) (hn : needOf s t = none) :
    standingOf s t = .none := by
  have unheld : ∀ r, ¬ (standingOf s t = .queued r ∨ standingOf s t = .waiting r) := fun r hr =>
    nomatch hn.symm.trans ((h r).mp ((held_iff ho).mpr hr))
  cases hs : standingOf s t with
  | none => rfl
  | queued r => exact absurd (.inl hs) (unheld r)
  | waiting r => exact absurd (.inr hs) (unheld r)

theorem Serves.standing_some {s : State} {t : Thing} {r : Reason} (h : Serves s t) (ho : Orderly s.dispatch.queue (markOf s))
    (hn : needOf s t = some r) : standingOf s t = .queued r ∨ standingOf s t = .waiting r := (held_iff ho).mp ((h r).mpr hn)

/-! ## Changes of one thing's standing -/

/-- From s to u the thing t comes to be held for o, and every other thing stays held as it was. (A record that the fault table does not hold has no mark
to be held by.) -/
structure ServedAs (t : Thing) (o : Option Reason) (s u : State) : Prop where
  self : ∀ r, Held u t r ↔ o = some r
  before : ∀ {x r}, x ≠ t → Held u x r → Held s x r
  after : ∀ {x r}, x ≠ t → Present s x → Held s x r → Held u x r

/-- From s to u things change their places alone. -/
structure HeldAlike (s u : State) : Prop where
  before : ∀ {x r}, Held u x r → Held s x r
  after : ∀ {x r}, Present s x → Held s x r → Held u x r

theorem HeldAlike.refl (s : State) : HeldAlike s s := ⟨id, fun _ => id⟩

/-- Nothing changes for a thing that is held as it needs to be. -/
theorem ServedAs.refl {t : Thing} {o : Option Reason} {s : State} (h : ∀ r, Held s t r ↔ o = some r) : ServedAs t o s s :=
  ⟨h, fun _ => id, fun _ _ => id⟩

/-- A thing that is held as before has changed its place alone. -/
theorem ServedAs.alike {t : Thing} {r : Reason} {s u : State} (h : ServedAs t (some r) s u) (hs : ∀ r', Held s t r' ↔ some r = some r') :
    HeldAlike s u := by
  refine ⟨fun {x r'} hx => ?_, fun {x r'} hp hx => ?_⟩ <;> by_cases hxt : x = t
  · subst hxt; exact (hs r').mpr ((h.self r').mp hx)
  · exact h.before hxt hx
  · subst hxt; exact (h.self r').mpr ((hs r').mp hx)
  · exact h.after hxt hp hx

/-- A change of standing, and then one of places. -/
theorem ServedAs.then {t : Thing} {o : Option Reason} {s u v : State} (h : ServedAs t o s u) (k : HeldAlike u v) (hf : MarkFrame s u)
    (ho : o ≠ none → Present s t) : ServedAs t o s v := by
  refine ⟨fun r => ⟨fun hr => (h.self r).mp (k.before hr), fun hr => ?_⟩, fun hx hv => h.before hx (k.before hv),
    fun hx hp hs => k.after (hf.present.mpr hp) (h.after hx hp hs)⟩
  exact k.after (hf.present.mpr (ho (hr ▸ Option.some_ne_none r))) ((h.self r).mpr hr)

/-- A thing that was served and is not the one changed is served still. -/
theorem ServedAs.serves {t x : Thing} {s u : State} (h : ServedAs t (needOf s t) s u) (hf : MarkFrame s u) (hs : x = t ∨ Serves s x) :
    Serves u x := by
  intro r
  rw [hf.needOf]
  by_cases hx : x = t
  · rw [hx]; exact h.self r
  · have hs := hs.resolve_left hx r
    exact ⟨fun hr => hs.mp (h.before hx hr), fun hn => h.after hx (present_of_need hn) (hs.mpr hn)⟩

/-- The item of a thing goes in, in place of any that the thing had. -/
theorem servedAs_insert {i : Item} {s u : State} (hq : ∀ x, x ∈ u.dispatch.queue ↔ x = i ∨ x ∈ s.dispatch.queue ∧ x.thing ≠ i.thing)
    (hi : markOf u i.thing = none) (hm : ∀ x, x ≠ i.thing → markOf u x = markOf s x) : ServedAs i.thing (some i.reason) s u where
  self r := by
    simp only [Held, hq, hi]
    grind
  before hx := by
    simp only [Held, hq, hm _ hx]
    grind
  after hx _ := by
    simp only [Held, hq, hm _ hx]
    grind

/-- A thing that has no queued item waits. -/
theorem servedAs_wait {t : Thing} {r : Reason} {s u : State} (hq : u.dispatch.queue = s.dispatch.queue) (hn : queuedItem s t = none)
    (hi : markOf u t = some r) (hm : ∀ x, x ≠ t → markOf u x = markOf s x) : ServedAs t (some r) s u where
  self r' := by
    simp only [Held, hq, hi]
    exact ⟨fun h => h.resolve_left fun ⟨i, hi, hit, _⟩ => queuedItem_eq_none.mp hn i hi hit, .inr⟩
  before hx := by simp only [Held, hq, hm _ hx, imp_self]
  after hx _ := by simp only [Held, hq, hm _ hx, imp_self]

/-- A thing's item goes, and its mark. -/
theorem servedAs_clear {t : Thing} {s u : State} (hq : ∀ x, x ∈ u.dispatch.queue ↔ x ∈ s.dispatch.queue ∧ x.thing ≠ t)
    (hi : markOf u t = none) (hm : ∀ x, x ≠ t → markOf u x = markOf s x) : ServedAs t none s u where
  self r := by
    simp only [Held, hq, hi]
    grind
  before hx := by
    simp only [Held, hq, hm _ hx]
    grind
  after hx _ := by
    simp only [Held, hq, hm _ hx]
    grind

end Sys2Proof.Machine
end

section
/-! PROOF. A queue action thing by thing (R149 to R152): the place of a new item, an exchange, an admission, a withdrawal and a changed item each leave
the queue in its order and the thing with the standing it needs. -/

namespace Sys2Proof.Machine

/-! ## What is left of a thing's holding -/

theorem TablesRise.setMark {s : State} (h : TablesRise s) (m : Option Reason) (t : Thing) : TablesRise (setMark m t s) := tablesRise_closed.mark h
theorem TablesRise.setQueue {s : State} (h : TablesRise s) (q : List Item) : TablesRise (setQueue q s) := ⟨h.records, h.slots⟩

theorem held_setMark_ne {t x : Thing} (h : x ≠ t) (m : Option Reason) (s : State) (r : Reason) : Held (setMark m t s) x r ↔ Held s x r := by
  simp only [Held, setMark_dispatch, markOf_setMark_ne h]

/-- A thing that waits, and is not queued, is held for its mark. -/
theorem held_of_mark {s : State} {t : Thing} {r : Reason} (hm : markOf s t = some r) (hn : queuedItem s t = none) (r' : Reason) :
    Held s t r' ↔ some r = some r' := by
  rw [← hm]
  exact ⟨fun h => h.resolve_left fun ⟨i, hi, hit, _⟩ => queuedItem_eq_none.mp hn i hi hit, .inr⟩

/-- A queued thing is held for its item's reason. -/
theorem held_of_queued {s : State} (h : QueueOrdered s) {t : Thing} {i : Item} (hi : queuedItem s t = some i) (r : Reason) :
    Held s t r ↔ some i.reason = some r := by
  have unmarked : ¬ standingOf s t = .waiting r := fun hw => nomatch hi.symm.trans (standingOf_eq_waiting.mp hw).1
  rw [held_iff h.orderly, or_iff_left unmarked, standingOf_eq_queued, hi]
  simp only [Option.some.injEq, exists_eq_left']

/-- A thing that is neither queued nor waiting is not held. -/
theorem held_of_none {s : State} (h : QueueOrdered s) {t : Thing} (hs : standingOf s t = .none) (r : Reason) : Held s t r ↔ none = some r := by
  rw [held_iff h.orderly, hs]
  simp only [reduceCtorEq, or_self]

/-- What clears a thing's own mark on the way is a change of its standing all the same. -/
theorem ServedAs.of_unmarked {t : Thing} {o : Option Reason} {s u : State} (h : ServedAs t o (setMark none t s) u) : ServedAs t o s u :=
  ⟨h.self, fun hx hu => (held_setMark_ne hx none s _).mp (h.before hx hu),
    fun hx hp hs => h.after hx (((MarkFrame.refl s).setMark none t).present.mpr hp) ((held_setMark_ne hx none s _).mpr hs)⟩

/-- In an orderly queue a marked thing is not queued. -/
theorem QueueOrdered.unqueued {s : State} (h : QueueOrdered s) {t : Thing} {r : Reason} (hm : markOf s t = some r) : queuedItem s t = none := by
  refine queuedItem_eq_none.mpr fun i hi hit => ?_
  rw [← hit, h.apart i hi] at hm
  exact nomatch hm

/-- R151: a thing waits only while the queue is full. -/
theorem QueueOrdered.full {s : State} (h : QueueOrdered s) {t : Thing} {r : Reason} (hm : markOf s t = some r) :
    ¬ s.dispatch.queue.length < Config.maxQueue := fun hlt => nomatch (h.orderly.waits hlt t).symm.trans hm

/-- A queue action's part: the queue is in order after it, and the thing is held for what it needs. -/
structure Serving (t : Thing) (o : Option Reason) (s u : State) : Prop where
  ordered : QueueOrdered u
  served : ServedAs t o s u

/-! ## Displacing the last item (R150, R152) -/

/-- R150: an item in the place of the last one, which waits. -/
def displaced (i last : Item) (s : State) : State :=
  setMark (some last.reason) last.thing (setQueue (insertItem i s.dispatch.queue.dropLast) s)

theorem displaced_queue (i last : Item) (s : State) : (displaced i last s).dispatch.queue = insertItem i s.dispatch.queue.dropLast := by
  rw [displaced, setMark_dispatch, setQueue_dispatch]

theorem markOf_displaced_ne {last : Item} {x : Thing} (h : x ≠ last.thing) (i : Item) (s : State) :
    markOf (displaced i last s) x = markOf s x := by
  rw [displaced, markOf_setMark_ne h, markOf_setQueue]

theorem markOf_displaced_last {last : Item} {s : State} (h : Present s last.thing) (i : Item) :
    markOf (displaced i last s) last.thing = some last.reason := markOf_setMark_self (s := setQueue (insertItem i s.dispatch.queue.dropLast) s) h _

/-- The last item is of another thing than one that is not queued. -/
theorem ne_last_of_unqueued {s : State} {i last : Item} (hl : s.dispatch.queue.getLast? = some last) (hn : queuedItem s i.thing = none) :
    i.thing ≠ last.thing := fun he => queuedItem_eq_none.mp hn last (List.mem_of_getLast? hl) he.symm

section
variable {s : State} {i last : Item} (h : QueueOrdered s) (hl : s.dispatch.queue.getLast? = some last) (hn : queuedItem s i.thing = none)
  (hm : markOf s i.thing = none)
include h hl hn hm

theorem displaced_ordered (hfull : ¬ s.dispatch.queue.length < Config.maxQueue) : QueueOrdered (displaced i last s) := by
  have hne := ne_last_of_unqueued hl hn
  have hlast := h.orderly.last_thing hl
  have hlen : s.dispatch.queue.dropLast.length + 1 = Config.maxQueue := by
    have hmax : 0 < Config.maxQueue := by decide
    have hb := h.bound
    rw [List.length_dropLast]
    omega
  refine (queueOrdered_iff _).mpr ⟨(h.tables.setQueue _).setMark _ _, ?_⟩
  rw [displaced_queue]
  refine h.orderly.insert (List.dropLast_sublist _) (by omega) (fun x hx => queuedItem_eq_none.mp hn x (List.mem_of_mem_dropLast hx)) ?_
    (fun x hx => ?_) (fun hlt => absurd hlen (Nat.ne_of_lt hlt))
  · rw [markOf_displaced_ne hne, hm]
  · rw [markOf_displaced_ne (hlast x hx), h.apart x (List.mem_of_mem_dropLast hx)]

theorem displaced_served : ServedAs i.thing (some i.reason) s (displaced i last s) := by
  have hne := ne_last_of_unqueued hl hn
  have hfresh := queuedItem_eq_none.mp hn
  have hq : ∀ x, x ∈ s.dispatch.queue ↔ x ∈ s.dispatch.queue.dropLast ∨ x = last := fun x => by
    conv_lhs => rw [← List.dropLast_append_getLast? last hl]
    rw [List.mem_append, List.mem_singleton]
  refine ⟨fun r => ?_, fun {x r} hx hu => ?_, fun {x r} hx hp hs => ?_⟩
  · simp only [Held, displaced_queue, mem_insertItem, markOf_displaced_ne hne, hm]
    grind
  · obtain ⟨y, hy, hyx, hyr⟩ | hu := hu
    · rw [displaced_queue] at hy
      obtain rfl | hy := mem_insertItem.mp hy
      · exact absurd hyx.symm hx
      · exact .inl ⟨y, List.mem_of_mem_dropLast hy, hyx, hyr⟩
    · by_cases hxl : x = last.thing
      · subst hxl
        exact .inl ⟨last, List.mem_of_getLast? hl, rfl, Option.some.inj (markOf_setMark_mem hu)⟩
      · exact .inr ((markOf_displaced_ne hxl i s).symm.trans hu)
  · obtain ⟨y, hy, rfl, rfl⟩ | hs := hs
    · obtain hy | rfl := (hq y).mp hy
      · exact .inl ⟨y, displaced_queue i last s ▸ mem_insertItem.mpr (.inr hy), rfl, rfl⟩
      · exact .inr (markOf_displaced_last hp i)
    · have hxl : x ≠ last.thing := fun he => by
        rw [he, h.apart last (List.mem_of_getLast? hl)] at hs
        exact nomatch hs
      exact .inr ((markOf_displaced_ne hxl i s).trans hs)

end

/-! ## A new item (R150) -/

/-- R150: a thing that is neither queued nor waiting is queued, or it waits. -/
theorem placeItem_serving {s : State} {i : Item} (h : QueueOrdered s) (hp : Present s i.thing) (hn : queuedItem s i.thing = none)
    (hm : markOf s i.thing = none) : Serving i.thing (some i.reason) s (placeItem i s) := by
  have hfresh := queuedItem_eq_none.mp hn
  by_cases hroom : s.dispatch.queue.length < Config.maxQueue
  · rw [placeItem_room hroom]
    refine ⟨(queueOrdered_iff _).mpr ⟨h.tables.setQueue _, ?_⟩,
      servedAs_insert (fun x => ?_) (by rw [markOf_setQueue, hm]) fun x _ => markOf_setQueue _ s x⟩
    · exact h.orderly.insert (.refl _) hroom hfresh (by rw [markOf_setQueue, hm]) (fun x hx => by rw [markOf_setQueue, h.apart x hx])
        fun _ t => by rw [markOf_setQueue, h.orderly.waits hroom]
    · rw [setQueue_dispatch, mem_insertItem]
      exact or_congr_right (iff_self_and.mpr (hfresh x))
  · obtain ⟨last, hl⟩ := exists_last_of_full hroom
    by_cases ha : i.ahead last = true
    · rw [placeItem_displaces hroom hl ha]
      exact ⟨displaced_ordered h hl hn hm hroom, displaced_served h hl hn hm⟩
    · rw [placeItem_waits hroom hl ha]
      have hq : (setMark (some i.reason) i.thing s).dispatch.queue = s.dispatch.queue := by rw [setMark_dispatch]
      refine ⟨(queueOrdered_iff _).mpr ⟨h.tables.setMark _ _, ?_⟩,
        servedAs_wait hq hn (markOf_setMark_self hp _) fun x hx => markOf_setMark_ne hx _ s⟩
      rw [hq]
      exact h.orderly.keep (.refl _) (fun x hx => by rw [markOf_setMark_ne (hfresh x hx), h.apart x hx]) fun hlt => absurd hlt hroom

/-! ## An exchange (R152) -/

theorem setQueue_setMark (q : List Item) (m : Option Reason) (t : Thing) (s : State) : setMark m t (setQueue q s) = setQueue q (setMark m t s) := by
  cases t <;> rfl

theorem exchangeLast_room {s : State} (h : s.dispatch.queue.length < Config.maxQueue) : exchangeLast s = s := if_pos h

theorem exchangeLast_none {s : State} (h : waitingItems s = []) : exchangeLast s = s := by
  rw [exchangeLast, h]
  split <;> rfl

section
variable {s : State} {w last : Item} (hfull : ¬ s.dispatch.queue.length < Config.maxQueue) (hb : bestItem (waitingItems s) = some w)
  (hl : s.dispatch.queue.getLast? = some last)
include hfull hb hl

/-- R152: the best-ranked waiting item takes the place of the last queued one, which then waits. -/
theorem exchangeLast_exchanges (ha : w.ahead last = true) : exchangeLast s = displaced w last (setMark none w.thing s) := by
  simp only [exchangeLast, if_neg hfull, hb, hl, if_pos ha]
  rw [setQueue_setMark, displaced, setMark_dispatch]

theorem exchangeLast_stays (ha : ¬ w.ahead last = true) : exchangeLast s = s := by
  simp only [exchangeLast, if_neg hfull, hb, hl, if_neg ha]

end

/-- Clearing a mark in a full queue leaves it in its order. -/
theorem QueueOrdered.unmark {s : State} (h : QueueOrdered s) (t : Thing) : QueueOrdered (setMark none t s) := by
  have hclear : ∀ x, markOf s x = none → markOf (setMark none t s) x = none := fun x hx => by
    by_cases hxt : x = t
    · rw [hxt, markOf_setMark_none]
    · rw [markOf_setMark_ne hxt, hx]
  refine (queueOrdered_iff _).mpr ⟨h.tables.setMark _ _, ?_⟩
  rw [setMark_dispatch]
  exact h.orderly.keep (.refl _) (fun x hx => hclear _ (h.apart x hx)) fun hlt x => hclear x (h.orderly.waits hlt x)

/-- R152: an exchange leaves the queue in its order, and changes the places alone. -/
theorem exchangeLast_alike {s : State} (h : QueueOrdered s) : QueueOrdered (exchangeLast s) ∧ HeldAlike s (exchangeLast s) := by
  by_cases hroom : s.dispatch.queue.length < Config.maxQueue
  · rw [exchangeLast_room hroom]
    exact ⟨h, .refl s⟩
  obtain ⟨last, hl⟩ := exists_last_of_full hroom
  cases hb : bestItem (waitingItems s) with
  | none =>
    rw [exchangeLast_none (bestItem_eq_none.mp hb)]
    exact ⟨h, .refl s⟩
  | some w =>
    by_cases ha : w.ahead last = true
    · obtain ⟨hm, _⟩ := (mem_waitingItems h.tables).mp (bestItem_spec hb).1
      have hn := h.unqueued hm
      have hq : (setMark none w.thing s).dispatch.queue = s.dispatch.queue := by rw [setMark_dispatch]
      have hn' : queuedItem (setMark none w.thing s) w.thing = none := by rw [queuedItem, hq]; exact hn
      rw [exchangeLast_exchanges hroom hb hl ha]
      exact ⟨displaced_ordered (h.unmark _) (hq ▸ hl) hn' (markOf_setMark_none _ s) (hq ▸ hroom),
        (displaced_served (h.unmark _) (hq ▸ hl) hn' (markOf_setMark_none _ s)).of_unmarked.alike (held_of_mark hm hn)⟩
    · rw [exchangeLast_stays hroom hb hl ha]
      exact ⟨h, .refl s⟩

/-! ## A changed item (R152) -/

theorem rerankItem_queued {s : State} {i j : Item} (h : queuedItem s i.thing = some j) :
    rerankItem i s = exchangeLast (setQueue (insertItem i (itemsBut i.thing s.dispatch.queue)) s) := by
  simp only [rerankItem, h]
  rfl

theorem rerankItem_waiting {s : State} {i : Item} (h : queuedItem s i.thing = none) :
    rerankItem i s = exchangeLast (setMark (some i.reason) i.thing s) := by
  simp only [rerankItem, h]

/-- R152 step 1: a queued item whose reason or rank has changed goes to its new place. -/
theorem replaced_serving {s : State} {i j : Item} (h : QueueOrdered s) (hj : queuedItem s i.thing = some j) :
    Serving i.thing (some i.reason) s (setQueue (insertItem i (itemsBut i.thing s.dispatch.queue)) s) := by
  obtain ⟨hmem, hji⟩ := queuedItem_mem hj
  have hlen : (itemsBut i.thing s.dispatch.queue).length + 1 = s.dispatch.queue.length := hji ▸ itemsBut_length h.orderly.toRankOrdered hmem
  have hm : markOf s i.thing = none := hji ▸ h.apart j hmem
  refine ⟨(queueOrdered_iff _).mpr ⟨h.tables.setQueue _, ?_⟩,
    servedAs_insert (fun x => ?_) (by rw [markOf_setQueue, hm]) fun x _ => markOf_setQueue _ s x⟩
  · refine h.orderly.insert (itemsBut_sublist _ _) (by have := h.bound; omega) (fun x hx => (mem_itemsBut.mp hx).2) (by rw [markOf_setQueue, hm])
      (fun x hx => by rw [markOf_setQueue, h.apart x (mem_itemsBut.mp hx).1]) fun hlt t => ?_
    rw [markOf_setQueue, h.orderly.waits (hlen ▸ hlt)]
  · rw [setQueue_dispatch, mem_insertItem, mem_itemsBut]

/-- R152 step 1: an item that waits takes its new reason, and waits on. -/
theorem remarked_serving {s : State} {t : Thing} {r r' : Reason} (h : QueueOrdered s) (hm : markOf s t = some r) :
    Serving t (some r') s (setMark (some r') t s) := by
  have hn := h.unqueued hm
  have hq : (setMark (some r') t s).dispatch.queue = s.dispatch.queue := by rw [setMark_dispatch]
  refine ⟨(queueOrdered_iff _).mpr ⟨h.tables.setMark _ _, ?_⟩,
    servedAs_wait hq hn (markOf_setMark_self (present_of_mark hm) _) fun x hx => markOf_setMark_ne hx _ s⟩
  rw [hq]
  exact h.orderly.keep (.refl _) (fun x hx => by rw [markOf_setMark_ne (queuedItem_eq_none.mp hn x hx), h.apart x hx])
    fun hlt => absurd hlt (h.full hm)

/-- R152: a thing that is queued or waits is held for its item's reason then. -/
theorem rerankItem_serving {s : State} {i : Item} (h : QueueOrdered s) (hp : Present s i.thing) (hs : standingOf s i.thing ≠ .none) :
    Serving i.thing (some i.reason) s (rerankItem i s) := by
  cases hq : queuedItem s i.thing with
  | some j =>
    obtain ⟨hordered, hserved⟩ := replaced_serving h hq
    obtain ⟨hx, halike⟩ := exchangeLast_alike hordered
    rw [rerankItem_queued hq]
    exact ⟨hx, hserved.then halike ((MarkFrame.refl s).setQueue _) fun _ => hp⟩
  | none =>
    obtain ⟨r, hm⟩ := Option.ne_none_iff_exists'.mp fun hm => hs (standingOf_eq_none.mpr ⟨hq, hm⟩)
    obtain ⟨hordered, hserved⟩ := remarked_serving (r' := i.reason) h hm
    obtain ⟨hx, halike⟩ := exchangeLast_alike hordered
    rw [rerankItem_waiting hq]
    exact ⟨hx, hserved.then halike ((MarkFrame.refl s).setMark _ _) fun _ => hp⟩

/-! ## A withdrawal and an admission (R151) -/

/-- R151: the thing's item is gone, and the place that it leaves is still free. -/
def withdrawn (t : Thing) (s : State) : State := setMark none t (setQueue (itemsBut t s.dispatch.queue) s)

/-- R151: an item that waited is queued. -/
def admitted (b : Item) (s : State) : State := setMark none b.thing (setQueue (insertItem b s.dispatch.queue) s)

theorem withdrawItem_queued {s : State} {t : Thing} {i : Item} (h : queuedItem s t = some i) : withdrawItem t s = admitBest (withdrawn t s) := by
  simp only [withdrawItem, h]
  rfl

theorem withdrawItem_waiting {s : State} {t : Thing} (h : queuedItem s t = none) : withdrawItem t s = setMark none t s := by
  simp only [withdrawItem, h]

theorem admitBest_none {s : State} (h : waitingItems s = []) : admitBest s = s := by
  simp only [admitBest, h, bestItem, ite_self]

theorem admitBest_admits {s : State} {b : Item} (h : s.dispatch.queue.length < Config.maxQueue) (hb : bestItem (waitingItems s) = some b) :
    admitBest s = admitted b s := by
  simp only [admitBest, if_pos h, hb]
  rfl

@[simp] theorem withdrawn_queue (t : Thing) (s : State) : (withdrawn t s).dispatch.queue = itemsBut t s.dispatch.queue := by
  rw [withdrawn, setMark_dispatch, setQueue_dispatch]

@[simp] theorem admitted_queue (b : Item) (s : State) : (admitted b s).dispatch.queue = insertItem b s.dispatch.queue := by
  rw [admitted, setMark_dispatch, setQueue_dispatch]

theorem markOf_admitted_self (b : Item) (s : State) : markOf (admitted b s) b.thing = none := markOf_setMark_none _ _

theorem markOf_admitted_ne {b : Item} {x : Thing} (h : x ≠ b.thing) (s : State) : markOf (admitted b s) x = markOf s x := by
  rw [admitted, markOf_setMark_ne h, markOf_setQueue]

theorem withdrawn_frame (t : Thing) (s : State) : MarkFrame s (withdrawn t s) := ((MarkFrame.refl s).setQueue _).setMark _ _

section
variable {s : State} {t : Thing} {i : Item} (h : QueueOrdered s) (hi : queuedItem s t = some i)
include h hi

/-- A queued thing has no mark to lose. -/
theorem markOf_withdrawn (x : Thing) : markOf (withdrawn t s) x = markOf s x := by
  obtain ⟨hmem, rfl⟩ := queuedItem_mem hi
  rw [withdrawn, markOf_setMark_clear (by rw [markOf_setQueue, h.apart i hmem]), markOf_setQueue]

theorem withdrawn_room : (withdrawn t s).dispatch.queue.length + 1 = s.dispatch.queue.length := by
  obtain ⟨hmem, rfl⟩ := queuedItem_mem hi
  rw [withdrawn_queue, itemsBut_length h.orderly.toRankOrdered hmem]

/-- R151: the withdrawal of one queued item leaves the same items waiting. -/
theorem mem_waitingItems_withdrawn {b : Item} : b ∈ waitingItems (withdrawn t s) ↔ b ∈ waitingItems s :=
  (withdrawn_frame t s).mem_waitingItems h.tables ((h.tables.setQueue _).setMark _ _) (markOf_withdrawn h hi)

theorem withdrawn_served : ServedAs t none s (withdrawn t s) :=
  servedAs_clear (fun x => by rw [withdrawn_queue, mem_itemsBut]) (markOf_setMark_none _ _) fun x _ => markOf_withdrawn h hi x

/-- R151: where nothing waits, the place is left free. -/
theorem withdrawn_serving (hw : waitingItems s = []) : Serving t none s (withdrawn t s) := by
  refine ⟨(queueOrdered_iff _).mpr ⟨(h.tables.setQueue _).setMark _ _, ?_⟩, withdrawn_served h hi⟩
  rw [withdrawn_queue]
  have unmarked := (waitingItems_eq_nil h.tables).mp hw
  exact h.orderly.keep (itemsBut_sublist _ _) (fun x _ => (markOf_withdrawn h hi _).trans (unmarked _))
    fun _ x => (markOf_withdrawn h hi x).trans (unmarked x)

/-- R151: the best-ranked waiting item takes the place. -/
theorem admitted_serving {b : Item} (hb : b ∈ waitingItems s) : Serving t none s (admitted b (withdrawn t s)) := by
  obtain ⟨hm, _⟩ := (mem_waitingItems h.tables).mp hb
  have hfresh := queuedItem_eq_none.mp (h.unqueued hm)
  have hroom := withdrawn_room h hi
  have hfull := h.full hm
  have hbound := h.bound
  have hrest : ∀ x ∈ itemsBut t s.dispatch.queue, x.thing ≠ b.thing := fun x hx => hfresh x (mem_itemsBut.mp hx).1
  have hm' : markOf (withdrawn t s) b.thing = some b.reason := (markOf_withdrawn h hi _).trans hm
  have hn' : queuedItem (withdrawn t s) b.thing = none := queuedItem_eq_none.mpr fun x hx => hrest x (withdrawn_queue t s ▸ hx)
  constructor
  · refine (queueOrdered_iff _).mpr ⟨((((h.tables.setQueue _).setMark _ _).setQueue _).setMark _ _), ?_⟩
    rw [admitted_queue, withdrawn_queue]
    rw [withdrawn_queue] at hroom
    refine h.orderly.insert (itemsBut_sublist _ _) (by omega) hrest (markOf_admitted_self b _) (fun x hx => ?_) (by omega)
    rw [markOf_admitted_ne (hrest x hx), markOf_withdrawn h hi, h.apart x (mem_itemsBut.mp hx).1]
  · refine (withdrawn_served h hi).then ((servedAs_insert (fun x => ?_) (markOf_admitted_self b _) fun x hx => markOf_admitted_ne hx _).alike
      (held_of_mark hm' hn')) (withdrawn_frame t s) (absurd rfl)
    rw [admitted_queue, mem_insertItem, withdrawn_queue]
    exact or_congr_right (iff_self_and.mpr (hrest x))

/-- R151: what waits best is the same before the withdrawal and after it. -/
theorem bestItem_withdrawn {b : Item} (hb : bestItem (waitingItems (withdrawn t s)) = some b) : b ∈ waitingItems s :=
  (mem_waitingItems_withdrawn h hi).mp (bestItem_spec hb).1

theorem withdrawn_waiting_none : waitingItems (withdrawn t s) = [] ↔ waitingItems s = [] := by
  simp only [List.eq_nil_iff_forall_not_mem, mem_waitingItems_withdrawn h hi]

theorem withdrawn_length_lt : (withdrawn t s).dispatch.queue.length < Config.maxQueue := by
  have := withdrawn_room h hi
  have := h.bound
  omega

end

/-- R151: a thing that needs no item has none then. -/
theorem withdrawItem_serving {s : State} {t : Thing} (h : QueueOrdered s) : Serving t none s (withdrawItem t s) := by
  cases hi : queuedItem s t with
  | none =>
    rw [withdrawItem_waiting hi]
    refine ⟨h.unmark t, servedAs_clear (fun x => ?_) (markOf_setMark_none t s) fun x hx => markOf_setMark_ne hx _ s⟩
    rw [setMark_dispatch]
    exact iff_self_and.mpr (queuedItem_eq_none.mp hi x)
  | some i =>
    rw [withdrawItem_queued hi]
    cases hb : bestItem (waitingItems (withdrawn t s)) with
    | none =>
      have hw := bestItem_eq_none.mp hb
      rw [admitBest_none hw]
      exact withdrawn_serving h hi ((withdrawn_waiting_none h hi).mp hw)
    | some b =>
      rw [admitBest_admits (withdrawn_length_lt h hi) hb]
      exact admitted_serving h hi (bestItem_withdrawn h hi hb)

/-! ## One thing (R149) -/

section
variable {s : State} {t : Thing}

theorem handThing_idle (hs : standingOf s t = .none) (hn : needOf s t = none) : handThing t s = s := by
  simp only [handThing, hs, hn]

theorem handThing_places {r : Reason} (hs : standingOf s t = .none) (hn : needOf s t = some r) :
    handThing t s = placeItem (mkItem s t r) s := by
  simp only [handThing, hs, hn]

theorem handThing_withdraws (hs : standingOf s t ≠ .none) (hn : needOf s t = none) : handThing t s = withdrawItem t s := by
  unfold handThing
  cases hst : standingOf s t with
  | none => exact absurd hst hs
  | queued r => simp only [hn]
  | waiting r => simp only [hn]

theorem handThing_reranks {r : Reason} (hs : standingOf s t ≠ .none) (hn : needOf s t = some r) :
    handThing t s = if queuedItem s t = some (mkItem s t r) then s else rerankItem (mkItem s t r) s := by
  unfold handThing
  cases hst : standingOf s t with
  | none => exact absurd hst hs
  | queued r' => simp only [hn]
  | waiting r' => simp only [hn]

/-- R149: a thing that is handed over has the standing that it needs then, and the queue is in its order. -/
theorem handThing_serving (h : QueueOrdered s) : Serving t (needOf s t) s (handThing t s) := by
  by_cases hs : standingOf s t = .none
  · cases hn : needOf s t with
    | none =>
      rw [handThing_idle hs hn]
      exact ⟨h, .refl (held_of_none h hs)⟩
    | some r =>
      have hp := placeItem_serving (i := mkItem s t r) h (by rw [mkItem_thing]; exact present_of_need hn)
        (by rw [mkItem_thing]; exact (standingOf_eq_none.mp hs).1) (by rw [mkItem_thing]; exact (standingOf_eq_none.mp hs).2)
      rwa [mkItem_thing, mkItem_reason, ← handThing_places hs hn] at hp
  · cases hn : needOf s t with
    | none =>
      rw [handThing_withdraws hs hn]
      exact withdrawItem_serving h
    | some r =>
      rw [handThing_reranks hs hn]
      split
      · rename_i hq
        have held := held_of_queued h hq
        rw [mkItem_reason] at held
        exact ⟨h, .refl held⟩
      · have hr := rerankItem_serving (i := mkItem s t r) h (by rw [mkItem_thing]; exact present_of_need hn) (by rwa [mkItem_thing])
        rwa [mkItem_thing, mkItem_reason] at hr

end

/-! ## A hand-over (R149) -/

theorem handThing_frame (t : Thing) (s : State) : MarkFrame s (handThing t s) := handThing_kept (markFrame_closed s) t (.refl s)

/-- R149: each thing in the order handed. -/
def handAll (ts : List Thing) (s : State) : State := ts.foldl (fun s t => handThing t s) s

/-- R149: after a hand-over every thing that was handed has the standing that it needs, and every other that had it has it still. -/
theorem handAll_serves (ts : List Thing) {s : State} (h : QueueOrdered s) :
    QueueOrdered (handAll ts s) ∧ ∀ x, x ∈ ts ∨ Serves s x → Serves (handAll ts s) x := by
  induction ts generalizing s with
  | nil => exact ⟨h, fun x hx => hx.resolve_left (List.not_mem_nil)⟩
  | cons t ts ih =>
    obtain ⟨hordered, hserved⟩ := handThing_serving (t := t) h
    obtain ⟨hall, hserves⟩ := ih hordered
    refine ⟨hall, fun x hx => hserves x ?_⟩
    by_cases hxs : x ∈ ts
    · exact .inl hxs
    · refine .inr (hserved.serves (handThing_frame t s) (hx.imp_left fun hm => ?_))
      exact (List.mem_cons.mp hm).resolve_right hxs

end Sys2Proof.Machine
end

section
/-! PROOF. The queue action whole (R149 to R153, R159, R161): the queue stays in its order, under every change of the state and at every step; and what one
queue action makes of queue, marks, notice and ALERT state. -/

namespace Sys2Proof.Machine

/-! ## The end of a queue action (R153) -/

/-- R161, R162: driving the output sets state, pin and flash period alone. -/
theorem driveAlert_eq (a : AlertState) (d : Dispatch) :
    driveAlert a d = { d with alert := a, pinHigh := (driveAlert a d).pinHigh, flash := (driveAlert a d).flash } := by
  cases a with
  | steady => rfl
  | idle => rfl
  | flash =>
    by_cases h : d.alert = .flash
    · rw [driveAlert, if_pos h, ← h]
    · rw [driveAlert, if_neg h]

@[simp] theorem driveAlert_alert (a : AlertState) (d : Dispatch) : (driveAlert a d).alert = a := by rw [driveAlert_eq]
@[simp] theorem driveAlert_notice (a : AlertState) (d : Dispatch) : (driveAlert a d).notice = d.notice := by rw [driveAlert_eq]
@[simp] theorem driveAlert_notices (a : AlertState) (d : Dispatch) : (driveAlert a d).notices = d.notices := by rw [driveAlert_eq]
@[simp] theorem driveAlert_settings (a : AlertState) (d : Dispatch) : (driveAlert a d).alertSettings = d.alertSettings := by rw [driveAlert_eq]

/-- R159: what a noted head leaves of the dispatch block. -/
theorem noteHead_eq (old : Option Item) (s : State) :
    noteHead old s = { s with dispatch := { s.dispatch with notice := (noteHead old s).dispatch.notice } } := by
  unfold noteHead
  split <;> rfl

theorem noteHead_notice (old : Option Item) (s : State) : (noteHead old s).dispatch.notice =
    if s.dispatch.notices = true ∧ (headOf s).map (fun i => (i.thing, i.reason)) ≠ old.map (fun i => (i.thing, i.reason)) then
      some ((headOf s).map (summaryOf s))
    else s.dispatch.notice := by
  unfold noteHead
  simp only [headSame, Bool.and_eq_true, Bool.not_eq_true', decide_eq_false_iff_not, ne_comm (a := Option.map _ old)]
  split <;> rfl

/-- R153: the end of a queue action touches the dispatch block alone, and of that neither queue nor settings. -/
theorem queueAction_eq (ts : List Thing) (s : State) : queueAction ts s =
    { handAll ts s with dispatch := (driveAlert (alertFor (handAll ts s).dispatch.queue)
        { (handAll ts s).dispatch with notice := (noteHead (headOf s) (handAll ts s)).dispatch.notice }) } := by
  show noteAlert (noteHead (headOf s) (handAll ts s)) = _
  rw [noteHead_eq]
  rfl

theorem queueAction_queue (ts : List Thing) (s : State) : (queueAction ts s).dispatch.queue = (handAll ts s).dispatch.queue := by
  rw [queueAction_eq, driveAlert_queue]

theorem markOf_queueAction (ts : List Thing) (s : State) (x : Thing) : markOf (queueAction ts s) x = markOf (handAll ts s) x := by
  rw [queueAction_eq]
  cases x <;> rfl

theorem summaryOf_queueAction (ts : List Thing) (s : State) (i : Item) : summaryOf (queueAction ts s) i = summaryOf (handAll ts s) i := by
  rw [queueAction_eq]
  rfl

/-- What a queue action leaves of the dispatch block, but for the items, the notice and the ALERT output. -/
theorem queueAction_dispatch (ts : List Thing) (s : State) : (queueAction ts s).dispatch = { s.dispatch with
    queue := (queueAction ts s).dispatch.queue
    notice := (queueAction ts s).dispatch.notice
    alert := alertFor (queueAction ts s).dispatch.queue
    pinHigh := (queueAction ts s).dispatch.pinHigh
    flash := (queueAction ts s).dispatch.flash } := by
  have hd := handAll_dispatch ts s
  have hsettings : (queueAction ts s).dispatch.alertSettings = s.dispatch.alertSettings := by
    rw [queueAction_eq, driveAlert_settings]; exact hd.settings
  have hnotices : (queueAction ts s).dispatch.notices = s.dispatch.notices := by
    rw [queueAction_eq, driveAlert_notices]; exact hd.notices
  have halert : (queueAction ts s).dispatch.alert = alertFor (queueAction ts s).dispatch.queue := by
    rw [queueAction_queue, queueAction_eq, driveAlert_alert]
  simp only [← hsettings, ← hnotices, ← halert]

/-- A queue action changes records, slots and the dispatch block, and of the last what it says. -/
theorem queueAction_state (ts : List Thing) (s : State) : queueAction ts s = { s with
    faults := (queueAction ts s).faults
    incidents := { s.incidents with slots := (queueAction ts s).incidents.slots }
    dispatch := { s.dispatch with
      queue := (queueAction ts s).dispatch.queue
      notice := (queueAction ts s).dispatch.notice
      alert := alertFor (queueAction ts s).dispatch.queue
      pinHigh := (queueAction ts s).dispatch.pinHigh
      flash := (queueAction ts s).dispatch.flash } } := by
  have hframe := queueAction_frame ts s
  have hincidents : (queueAction ts s).incidents = { s.incidents with slots := (queueAction ts s).incidents.slots } := by
    simp only [← hframe.storms]
  have heq := hframe.tables.eq
  rwa [hincidents, queueAction_dispatch] at heq

theorem serves_queueAction {ts : List Thing} {s : State} {x : Thing} (h : Serves (handAll ts s) x) : Serves (queueAction ts s) x := by
  have hall : MarkFrame s (handAll ts s) := handAll_kept (markFrame_closed s) ts (.refl s)
  intro r
  rw [(queueAction_frame ts s).needOf, ← hall.needOf, ← h r, Held, Held, queueAction_queue, markOf_queueAction]

theorem queueAction_notice (ts : List Thing) (s : State) : (queueAction ts s).dispatch.notice =
    if s.dispatch.notices = true ∧
        (headOf (queueAction ts s)).map (fun i => (i.thing, i.reason)) ≠ (headOf s).map (fun i => (i.thing, i.reason)) then
      some ((headOf (queueAction ts s)).map (summaryOf (queueAction ts s)))
    else s.dispatch.notice := by
  have hd := handAll_dispatch ts s
  have hhead : headOf (queueAction ts s) = headOf (handAll ts s) := by rw [headOf, queueAction_queue]; rfl
  have hsummary : summaryOf (queueAction ts s) = summaryOf (handAll ts s) := funext (summaryOf_queueAction ts s)
  have hnotice : (queueAction ts s).dispatch.notice = (noteHead (headOf s) (handAll ts s)).dispatch.notice := by
    rw [queueAction_eq, driveAlert_notice]
  have hnotices : (handAll ts s).dispatch.notices = s.dispatch.notices := hd.notices
  have hpending : (handAll ts s).dispatch.notice = s.dispatch.notice := hd.notice
  rw [hhead, hsummary, hnotice, noteHead_notice, hnotices, hpending]

/-! ## The primitive changes -/

/-- A change of the state that leaves the queue, keeps the tables' keys rising and sets no mark keeps the queue in its order. -/
theorem QueueOrdered.change {s u : State} (h : QueueOrdered s) (hq : u.dispatch.queue = s.dispatch.queue := by rfl)
    (ht : TablesRise s → TablesRise u := by exact fun k => ⟨k.records, k.slots⟩)
    (hm : ∀ x, markOf u x = markOf s x ∨ markOf u x = none := by exact fun x => by cases x <;> exact .inl rfl) : QueueOrdered u := by
  have clear : ∀ x, markOf s x = none → markOf u x = none := fun x hx => (hm x).elim (·.trans hx) id
  refine (queueOrdered_iff u).mpr ⟨ht h.tables, hq ▸ ?_⟩
  exact h.orderly.keep (.refl _) (fun x hx => clear _ (h.apart x hx)) fun hlt x => clear x (h.orderly.waits hlt x)

/-- R148: the queue stays in its order under a queue action. -/
theorem queueOrdered_queueAction {s : State} (h : QueueOrdered s) (ts : List Thing) : QueueOrdered (queueAction ts s) :=
  (handAll_serves ts h).1.change (hq := queueAction_queue ts s) (ht := fun k => by rw [queueAction_eq]; exact ⟨k.records, k.slots⟩)
    (hm := fun x => .inl (markOf_queueAction ts s x))

/-- A change of one record's entry, which leaves the record unmarked or with its mark. -/
theorem markOf_recordChange {s u : State} {key : Nat} (hi : u.incidents = s.incidents) (hne : ∀ k, k ≠ key → recordOf u k = recordOf s k)
    (hkey : markOf u (.record key) = markOf s (.record key) ∨ markOf u (.record key) = none) (x : Thing) :
    markOf u x = markOf s x ∨ markOf u x = none := by
  cases x with
  | incident n => exact .inl (by simp only [markOf, slotOf, hi])
  | record k =>
    by_cases hk : k = key
    · exact hk ▸ hkey
    · exact .inl (by rw [markOf, hne k hk]; rfl)

theorem queueOrdered_setSlot {s : State} (h : QueueOrdered s) {n : Nat} {v : Slot} (hv : v.waiting = none ∨ v.waiting = (slotOf s n).waiting) :
    QueueOrdered (setSlot n v s) := by
  refine h.change (ht := fun k => ⟨k.records, Table.wf_store k.slots n v⟩) (hm := fun x => ?_)
  cases x with
  | record key => exact .inl rfl
  | incident m =>
    by_cases hm : m = n
    · subst hm
      rw [markOf, slotOf_setSlot_self]
      exact hv.symm
    · exact .inl (by rw [markOf, slotOf_setSlot_ne v s hm]; rfl)

theorem queueOrdered_modRecord {s : State} (h : QueueOrdered s) {key : Nat} {f : Record → Record} (hf : ∀ r, (f r).waiting = r.waiting) :
    QueueOrdered (modRecord key f s) := by
  refine h.change (ht := fun k => ⟨Table.wf_modify k.records key f, k.slots⟩)
    (hm := markOf_recordChange rfl (fun k hk => recordOf_modRecord_ne f s hk) (.inl ?_))
  rw [markOf, markOf, recordOf_modRecord_self]
  cases recordOf s key with
  | none => rfl
  | some r => exact hf r

/-- R164, R118, R144: after a reset the queue and the tables are empty. -/
theorem queueOrdered_of_empty {s : State} (hq : s.dispatch.queue = []) (hf : s.faults = []) (hi : s.incidents.slots = []) : QueueOrdered s := by
  have hw : waitingItems s = [] := by rw [waitingItems, hf, hi]; rfl
  refine ⟨by rw [hf]; rfl, by rw [hi]; rfl, ?_, ?_, ?_, ?_, fun _ => hw⟩ <;> rw [hq]
  exacts [.nil, List.nodup_nil, fun _ h => (nomatch h), Nat.zero_le _]

/-- Each primitive change of the state keeps the queue in its order. -/
theorem queueOrdered_closed : Closed QueueOrdered where
  gate _ h := h.change
  station _ h := h.change
  asset h := h.change
  recordInsert {s key r} _ _ hr h := h.change (ht := fun k => ⟨Table.wf_insert k.records key r, k.slots⟩)
    (hm := markOf_recordChange rfl (fun k hk => Table.find_insert_ne _ r hk)
      (.inr (by rw [markOf, recordOf, Table.find_insert_self]; exact hr)))
  recordErase {s key} h := h.change (ht := fun k => ⟨Table.wf_erase k.records key, k.slots⟩)
    (hm := markOf_recordChange rfl (fun k hk => Table.find_erase_ne _ hk) (.inr (by rw [markOf, recordOf, Table.find_erase_self]; rfl)))
  record hf h := queueOrdered_modRecord h fun r => (hf r).2
  slot hv h := queueOrdered_setSlot h hv
  window _ h := h.change
  queue h := queueOrdered_queueAction h _
  flags h := h.change
  timebase _ h := h.change
  stationInsert _ h := h.change
  stationErase h := h.change
  assetInsert h := h.change
  assetErase h := h.change
  profiles h := h.change
  area h := h.change
  line _ h := h.change
  intake _ h := h.change
  noticeTaken h := h.change
  flash h := h.change (hq := flashStep_queue _)
  alert h := h.change (hq := applyAlert_queue _ _)
  notices h := h.change
  link _ h := h.change
  saveCount _ _ h := h.change
  saveEnd h := h.change
  saveStart h := h.change
  saveDone h := by
    unfold completeSave
    split
    · exact h
    · exact h.change
  tick h := h.change
  pending h := h.change
  powerOn _ := queueOrdered_of_empty rfl rfl rfl
  restart _ := queueOrdered_of_empty rfl rfl rfl
  factory _ := queueOrdered_of_empty rfl rfl rfl

/-! ## The order restored (R152) -/

/-- R152 step 2: an exchange, where one is due, restores the order. -/
theorem exchangeLast_restores {s v : State} (hv : QueueOrdered v) (hf : MarkFrame s v) :
    OrderRestored s (exchangeLast v) v.dispatch.queue (waitingItems v) := by
  refine ⟨fun h => ?_, fun b last hlen hb hl => ?_⟩
  · obtain hroom | hw := h
    · rw [exchangeLast_room hroom]
    · rw [exchangeLast_none hw]
  · have hfull : ¬ v.dispatch.queue.length < Config.maxQueue := by omega
    have hbest := bestItem_of_bestOf hb
    split
    · rename_i ha
      obtain ⟨hm, _⟩ := (mem_waitingItems hv.tables).mp hb.1
      have hne := ne_last_of_unqueued hl (hv.unqueued hm)
      rw [exchangeLast_exchanges hfull hbest hl ha, displaced_queue, setMark_dispatch]
      refine ⟨insertItem_perm b _, by rw [markOf_displaced_ne hne, markOf_setMark_none], fun hp => markOf_displaced_last ?_ b⟩
      exact ((MarkFrame.setMark hf none b.thing).present).mpr hp
    · rename_i ha
      rw [exchangeLast_stays hfull hbest hl ha]

/-- What restores the order is queue and marks. -/
theorem OrderRestored.of_eq {s u v : State} {q w : List Item} (h : OrderRestored s v q w) (hq : u.dispatch.queue = v.dispatch.queue)
    (hm : ∀ x, markOf u x = markOf v x) : OrderRestored s u q w := by
  simpa only [OrderRestored, hq, hm] using h

/-! ## One thing's queue action, by its standing and its need -/

section
variable {s : State} {t : Thing}

theorem standing_ne_none_of_queued {r : Reason} (h : standingOf s t = .queued r) : standingOf s t ≠ .none := by rw [h]; simp
theorem standing_ne_none_of_waiting {r : Reason} (h : standingOf s t = .waiting r) : standingOf s t ≠ .none := by rw [h]; simp

/-- R151: the withdrawal of a queued item, where nothing waits. -/
theorem handThing_withdraws_queued {r : Reason} (h : QueueOrdered s) (hs : standingOf s t = .queued r) (hn : needOf s t = none)
    (hw : waitingItems s = []) : handThing t s = withdrawn t s := by
  obtain ⟨i, hi, _⟩ := standingOf_eq_queued.mp hs
  rw [handThing_withdraws (standing_ne_none_of_queued hs) hn, withdrawItem_queued hi, admitBest_none ((withdrawn_waiting_none h hi).mpr hw)]

/-- R151: the withdrawal of a queued item, where the best-ranked waiting item takes its place. -/
theorem handThing_admits {r : Reason} (h : QueueOrdered s) (hs : standingOf s t = .queued r) (hn : needOf s t = none) {b : Item}
    (hb : BestOf b (waitingItems s)) : handThing t s = admitted b (withdrawn t s) := by
  obtain ⟨i, hi, _⟩ := standingOf_eq_queued.mp hs
  have hbest := bestItem_of_bestOf ((bestOf_congr fun _ => mem_waitingItems_withdrawn h hi).mpr hb)
  rw [handThing_withdraws (standing_ne_none_of_queued hs) hn, withdrawItem_queued hi, admitBest_admits (withdrawn_length_lt h hi) hbest]

/-- R151: the withdrawal of a waiting item. -/
theorem handThing_withdraws_waiting {r : Reason} (hs : standingOf s t = .waiting r) (hn : needOf s t = none) :
    handThing t s = setMark none t s := by
  rw [handThing_withdraws (standing_ne_none_of_waiting hs) hn, withdrawItem_waiting (standingOf_eq_waiting.mp hs).1]

/-- R152: a queued item whose reason or rank has changed goes to its new place, and the order is restored. -/
theorem handThing_replaces {i : Item} {r : Reason} (h : QueueOrdered s) (hi : queuedItem s t = some i) (hn : needOf s t = some r)
    (hne : mkItem s t r ≠ i) : OrderRestored s (handThing t s) (insertItem (mkItem s t r) (itemsBut t s.dispatch.queue)) (waitingItems s) := by
  have hs : standingOf s t ≠ .none := standing_ne_none_of_queued (standingOf_eq_queued.mpr ⟨i, hi, rfl⟩)
  have hchanged : queuedItem s t ≠ some (mkItem s t r) := fun he => hne (Option.some.inj (he.symm.trans hi))
  have hi' : queuedItem s (mkItem s t r).thing = some i := by rwa [mkItem_thing]
  rw [handThing_reranks hs hn, if_neg hchanged, rerankItem_queued hi']
  have hr := exchangeLast_restores (replaced_serving h hi').ordered ((MarkFrame.refl s).setQueue _)
  rwa [mkItem_thing] at hr ⊢

/-- R152: a waiting item takes its new reason, and the order is restored. -/
theorem handThing_remarks {r r' : Reason} (h : QueueOrdered s) (hs : standingOf s t = .waiting r) (hn : needOf s t = some r') :
    OrderRestored s (handThing t s) s.dispatch.queue (waitingItems (setMark (some r') t s)) := by
  obtain ⟨hq, hm⟩ := standingOf_eq_waiting.mp hs
  have hchanged : queuedItem s t ≠ some (mkItem s t r') := fun he => nomatch hq.symm.trans he
  have hq' : queuedItem s (mkItem s t r').thing = none := by rwa [mkItem_thing]
  rw [handThing_reranks (standing_ne_none_of_waiting hs) hn, if_neg hchanged, rerankItem_waiting hq', mkItem_thing, mkItem_reason]
  have hr := exchangeLast_restores (remarked_serving (r' := r') h hm).ordered ((MarkFrame.refl s).setMark _ _)
  rwa [setMark_dispatch] at hr

/-- R149: a thing with the standing it needs, and its item's rank as it was, is left as it is. -/
theorem handThing_same (h : standingOf s t = .none ∧ needOf s t = none ∨
    ∃ i r, queuedItem s t = some i ∧ needOf s t = some r ∧ mkItem s t r = i) : handThing t s = s := by
  obtain ⟨hs, hn⟩ | ⟨i, r, hi, hn, rfl⟩ := h
  · exact handThing_idle hs hn
  · rw [handThing_reranks (standing_ne_none_of_queued (standingOf_eq_queued.mpr ⟨_, hi, rfl⟩)) hn, if_pos hi]

end

end Sys2Proof.Machine

namespace Sys2Proof.Proofs

open Sys2Proof.Machine

/-- Settles O58: the order of the queue is closed under the primitive changes, so a step keeps it. -/
theorem stepKeepsQueueOrdered : Obligations.StepKeepsQueueOrdered := fun _ _ h hs => step_closed queueOrdered_closed h hs

/-- Settles O52. The hand-over serves each thing and leaves the served ones served; one thing's part goes by its standing and its need. -/
theorem queueActionServesNeeds : Obligations.QueueActionServesNeeds := by
  refine ⟨fun s ts h => ?_, fun s t h => ?_⟩
  · have hordered := queueOrdered_queueAction h ts
    have hframe := queueAction_frame ts s
    obtain ⟨_, hserves⟩ := handAll_serves ts h
    refine ⟨_, rfl, hordered, ?_, hframe.record, hframe.slot, fun t ht => ?_, queueAction_notice ts s⟩
    · exact queueAction_state ts s
    · have served := serves_queueAction (hserves t (.inl ht))
      have need := hframe.needOf t
      split
      · rename_i hn
        exact served.standing_none hordered.orderly (need.trans hn)
      · rename_i r hn
        exact served.standing_some hordered.orderly (need.trans hn)
  · intro q rest
    have hq : (queueAction [t] s).dispatch.queue = (handThing t s).dispatch.queue := queueAction_queue [t] s
    have hm : ∀ x, markOf (queueAction [t] s) x = markOf (handThing t s) x := markOf_queueAction [t] s
    refine ⟨_, rfl, fun r hs hn => ?_, fun r hs hn => ⟨fun hw => ?_, fun b hb => ?_⟩, fun r hs hn => ?_, fun i r hi hn hne => ?_,
      fun r r' hs hn => ?_, fun hsame => ?_⟩
    · rw [← handThing_places hs hn]
      exact ⟨hq, hm⟩
    · rw [hq, handThing_withdraws_queued h hs hn hw]
      exact withdrawn_queue t s
    · obtain ⟨i, hi, _⟩ := standingOf_eq_queued.mp hs
      simp only [hq, hm, handThing_admits h hs hn hb, admitted_queue, withdrawn_queue, markOf_admitted_self, true_and]
      exact ⟨insertItem_perm b _, fun x hx => (markOf_admitted_ne hx _).trans (markOf_withdrawn h hi x)⟩
    · rw [hq]
      simp only [hm, handThing_withdraws_waiting hs hn, setMark_dispatch]
      exact ⟨rfl, markOf_setMark_none t s, fun x hx => markOf_setMark_ne hx none s⟩
    · exact (handThing_replaces h hi hn hne).of_eq hq hm
    · exact (handThing_remarks h hs hn).of_eq hq hm
    · rw [hq, handThing_same hsame]
      exact ⟨rfl, fun x => by rw [hm, handThing_same hsame]⟩

end Sys2Proof.Proofs
end

section
/-! PROOF. ACKNOWLEDGE (R154, R155, R140): the order of its checks, and what it makes of a record, or of an incident and its members. -/

namespace Sys2Proof.Machine

/-! ## The body (R176) -/

theorem decEnum_reasons {n : Nat} (h : n ≤ 1) : decEnum reasons n = some (if n = 0 then .new else .restored) := by
  obtain rfl | rfl : n = 0 ∨ n = 1 := by omega
  · rfl
  · rfl

section
variable {b : List Byte}

theorem bodyThing_record (h0 : u8 b 0 = 0) (ha : u16 b 1 ≤ 4095) (h1 : 1 ≤ u8 b 3) (h2 : u8 b 3 ≤ 13) :
    bodyThing b = some (.record (u16 b 1 * 16 + u8 b 3)) := by
  rw [bodyThing, if_pos h0, bodyKey_eq ha h1 h2]
  rfl

theorem bodyThing_incident (h0 : u8 b 0 = 1) (h1 : 1 ≤ u8 b 1) (h2 : u8 b 1 ≤ 248) (h3 : u8 b 2 = 0) (h4 : u8 b 3 = 0) :
    bodyThing b = some (.incident (u8 b 1)) := by
  have hr : slotInRange (u8 b 1) = true := (inRange_iff _ _ _).mpr ⟨h1, h2⟩
  rw [bodyThing, h0, if_neg (by decide), if_pos rfl, if_pos ⟨hr, h3, h4⟩]

/-- R154: a field outside its values names no thing, or no reason. -/
theorem bodyThing_none (h : 2 ≤ u8 b 0 ∨ (u8 b 0 = 0 ∧ (4095 < u16 b 1 ∨ u8 b 3 = 0 ∨ 13 < u8 b 3)) ∨
    (u8 b 0 = 1 ∧ (u8 b 1 = 0 ∨ 248 < u8 b 1 ∨ u8 b 2 ≠ 0 ∨ u8 b 3 ≠ 0))) : bodyThing b = none := by
  obtain h | ⟨h0, h⟩ | ⟨h0, h⟩ := h
  · rw [bodyThing, if_neg (by omega), if_neg (by omega)]
  · have hk : bodyKey b 1 = none := if_neg fun hv => by
      obtain ⟨h1, h2, h3⟩ : u16 b 1 ≤ 4095 ∧ 1 ≤ u8 b 3 ∧ u8 b 3 ≤ 13 := hv
      omega
    rw [bodyThing, if_pos h0, hk]
    rfl
  · rw [bodyThing, if_neg (by omega), if_pos h0, if_neg]
    rintro ⟨hr, h2, h3⟩
    have := (inRange_iff _ _ _).mp hr
    omega

/-! ## The checks (R154) -/

section
variable {t : Thing} {r : Reason} {s : State}

theorem ownAcknowledge_badValue (h : bodyThing b = none ∨ decEnum reasons (u8 b 4) = none) : ownAcknowledge b s = (s, refuse .badValue) := by
  unfold ownAcknowledge
  obtain h | h := h
  · rw [h]
  · rw [h]
    cases bodyThing b <;> rfl

variable (ht : bodyThing b = some t) (hr : decEnum reasons (u8 b 4) = some r)
include ht hr

theorem ownAcknowledge_missing (h : thingMissing s t = true) : ownAcknowledge b s = (s, refuse .notFound) := by
  simp only [ownAcknowledge, ht, hr, answer, firstRefusal, h, if_true]

theorem ownAcknowledge_state (hm : thingMissing s t = false) (h : thingIsMember s t = true ∨ needOf s t ≠ some r) :
    ownAcknowledge b s = (s, refuse .state) := by
  cases hi : thingIsMember s t with
  | true => simp [ownAcknowledge, ht, hr, answer, firstRefusal, hm, hi]
  | false => simp [ownAcknowledge, ht, hr, answer, firstRefusal, hm, hi, h.resolve_left (by simp [hi])]

theorem ownAcknowledge_taken (hm : thingMissing s t = false) (hi : thingIsMember s t = false) (hn : needOf s t = some r) :
    ownAcknowledge b s = (acknowledge t r s, ok) := by
  simp only [ownAcknowledge, ht, hr]
  exact answer_passes s _ (by simp [hm, hi, hn])

end

end

/-! ## A record (R155) -/

section
variable {s : State} {key : Nat} {r : Record} (hr : recordOf s key = some r)
include hr

theorem thingMissing_record : thingMissing s (.record key) = false := by rw [thingMissing, hr]; rfl

theorem thingIsMember_record : thingIsMember s (.record key) = r.incident.isSome := by rw [thingIsMember, hr]; rfl

theorem needOf_recordOf : needOf s (.record key) = recordNeed r := by rw [needOf, hr]; rfl

/-- R155: a record that is marked seen, but for what its queue action does to the waiting marks. -/
theorem acknowledge_new_record : ∃ q, recordOf (acknowledge (.record key) .new s) key = some q ∧
    q.unmarked = { r with seen := true, waiting := none } := by
  refine (queueAction_frame [.record key] _).record_some (r := { r with seen := true }) ?_
  rw [recordOf_modRecord_self, hr]
  rfl

/-- R155: no slot's own fields change with a record that is no member. -/
theorem acknowledge_record_slot (hi : r.incident = none) (reason : Reason) (n : Nat) :
    (slotOf (acknowledge (.record key) reason s) n).unmarked = (slotOf s n).unmarked := by
  cases reason with
  | new => exact (queueAction_frame [.record key] _).slot n
  | restored =>
    refine ((queueAction_frame _ _).slot n).trans ?_
    rw [slotOf_takeRecord hr, hi]
    rfl

end

/-- R155: no other record's own fields change. -/
theorem acknowledge_new_record_ne {key k : Nat} (hk : k ≠ key) (s : State) :
    (recordOf (acknowledge (.record key) .new s) k).map Record.unmarked = (recordOf s k).map Record.unmarked :=
  ((queueAction_frame [.record key] _).record k).trans (congrArg _ (recordOf_modRecord_ne _ s hk))

theorem acknowledge_restored_record_ne {key k : Nat} (hk : k ≠ key) (s : State) :
    (recordOf (acknowledge (.record key) .restored s) k).map Record.unmarked = (recordOf s k).map Record.unmarked := by
  refine ((queueAction_frame _ _).record k).trans ?_
  rw [recordOf_takeRecord, if_neg hk]

theorem acknowledge_record_frame (key : Nat) (reason : Reason) (s : State) : SlotsFrame s (acknowledge (.record key) reason s) := by
  cases reason with
  | new => exact (modRecord_frame key _ s).trans (queueAction_slotsFrame _ _)
  | restored => exact removeRecord_frame key s

/-! ## An incident (R140, R155) -/

/-- R140: a member that is marked seen with its slot. -/
def Record.markSeen (r : Record) : Record := { r with seen := true }

theorem markSlotSeen_eq (n : Nat) (s : State) : markSlotSeen n s =
    (memberKeys s n).foldl (fun s key => modRecord key Record.markSeen s) (modSlot n (fun v => { v with seen := true }) s) := rfl

theorem markSlotSeen_frame (n : Nat) (s : State) : SlotsFrame s (markSlotSeen n s) :=
  (modSlot_frame n _ s).trans (foldl_slotsFrame (fun s key => modRecord_frame key _ s) _ _)

/-- R140: marking the members changes no slot beside the incident's own. -/
theorem slotOf_markSlotSeen (n m : Nat) (s : State) :
    slotOf (markSlotSeen n s) m = slotOf (modSlot n (fun v => { v with seen := true }) s) m :=
  foldl_closed (P := fun t => slotOf t m = slotOf (modSlot n (fun v => { v with seen := true }) s) m)
    (f := fun s key => modRecord key Record.markSeen s) (fun _ _ h => h) _ _ rfl

/-- R140: the members are marked seen, and no other record. -/
theorem recordOf_markSlotSeen {s : State} (hw : Table.wf s.faults = true) (n : Nat) {key : Nat} {r : Record} (hr : recordOf s key = some r) :
    recordOf (markSlotSeen n s) key = some (if r.incident = some n then r.markSeen else r) := by
  have hmem : key ∈ memberKeys s n ↔ r.incident = some n := by simp [memberKeys, mem_recordKeys hw, hr]
  have hnodup : (memberKeys s n).Nodup := recordKeys_nodup hw _
  have hr' : recordOf (modSlot n (fun v => { v with seen := true }) s) key = some r := hr
  rw [markSlotSeen_eq, foldl_read (P := fun _ => True) (read := recordOf) (act := fun _ => Option.map Record.markSeen)
    (fun _ _ _ => trivial) (fun s a _ => recordOf_modRecord_self a _ s) (fun s a b hb => recordOf_modRecord_ne _ s hb)
    hnodup trivial key, hr']
  simp only [hmem, Option.map_some, apply_ite some]

theorem acknowledge_incident_frame (n : Nat) (reason : Reason) (s : State) : SlotsFrame s (acknowledge (.incident n) reason s) := by
  cases reason with
  | new => exact (markSlotSeen_frame n s).trans (queueAction_slotsFrame _ _)
  | restored => exact (freeSlot_frame n s).trans (queueAction_slotsFrame _ _)

/-- R140, R155: the slot is marked seen, or it is FREE. -/
theorem acknowledge_incident_slot (n : Nat) (s : State) :
    (slotOf (acknowledge (.incident n) .new s) n).unmarked = { slotOf s n with seen := true, waiting := none } ∧
      (slotOf (acknowledge (.incident n) .restored s) n).unmarked = {} := by
  constructor
  · refine ((queueAction_frame _ _).slot n).trans ?_
    rw [slotOf_markSlotSeen, slotOf_modSlot_self]
    rfl
  · refine ((queueAction_frame _ _).slot n).trans ?_
    rw [slotOf_freeSlot_self]
    rfl

theorem acknowledge_incident_slot_ne {n m : Nat} (h : m ≠ n) (reason : Reason) (s : State) :
    (slotOf (acknowledge (.incident n) reason s) m).unmarked = (slotOf s m).unmarked := by
  cases reason with
  | new => exact ((queueAction_frame _ _).slot m).trans (by rw [slotOf_markSlotSeen, slotOf_modSlot_ne _ s h])
  | restored => exact ((queueAction_frame _ _).slot m).trans (by rw [freeSlot, slotOf_setSlot_ne _ s h])

/-- R140: with reason NEW the members are marked seen; every other record is as it was. -/
theorem acknowledge_incident_record {s : State} (hw : Table.wf s.faults = true) (n : Nat) {key : Nat} {r : Record}
    (hr : recordOf s key = some r) :
    (∃ q, recordOf (acknowledge (.incident n) .new s) key = some q ∧
      q.unmarked = if r.incident = some n then { r with seen := true, waiting := none } else r.unmarked) ∧
    ∃ q, recordOf (acknowledge (.incident n) .restored s) key = some q ∧ q.unmarked = r.unmarked := by
  refine ⟨?_, (queueAction_frame _ (freeSlot n s)).record_some hr⟩
  obtain ⟨q, hq, hu⟩ := (queueAction_frame (slotThings s n) _).record_some (recordOf_markSlotSeen hw n hr)
  exact ⟨q, hq, hu.trans (apply_ite Record.unmarked _ _ _)⟩

end Sys2Proof.Machine

namespace Sys2Proof.Proofs

open Sys2Proof.Machine

/-- Settles O50. The checks go by the thing that the body names; a taken ACKNOWLEDGE is what it does to that record, or to that slot and its members. -/
theorem acknowledgeRecord : Obligations.AcknowledgeRecord := by
  refine ⟨fun s f h h0 ha h1 h2 h4 => ?_, fun s f h h0 h1 h2 h3 h3' h4 => ?_, fun s f h hbad => ?_⟩
  · have ht := bodyThing_record h0 ha h1 h2
    have hreason := decEnum_reasons h4
    generalize u16 f.body 1 * 16 + u8 f.body 3 = key at ht ⊢
    refine ⟨fun hn => exec_refused h (ownAcknowledge_missing ht hreason (by rw [thingMissing, hn]; rfl)),
      fun r hr => ⟨fun hno => ?_, fun hi hn => ?_⟩⟩
    · refine exec_refused h (ownAcknowledge_state ht hreason (thingMissing_record hr) ?_)
      rwa [thingIsMember_record hr, needOf_recordOf hr]
    · have htaken := ownAcknowledge_taken ht hreason (thingMissing_record hr) (by rw [thingIsMember_record hr, hi]; rfl)
        (by rwa [needOf_recordOf hr])
      refine ⟨_, exec_taken h htaken, (acknowledge_record_frame key _ s).eq, fun hnew => ?_, fun hold => ?_,
        acknowledge_record_slot hr hi _, fun k hk => ?_⟩
      · rw [if_pos hnew]
        exact acknowledge_new_record hr
      · rw [hold]
        exact recordOf_removeRecord key s
      · split
        · exact acknowledge_new_record_ne hk s
        · exact acknowledge_restored_record_ne hk s
  · have ht := bodyThing_incident h0 h1 h2 h3 h3'
    have hreason := decEnum_reasons h4
    generalize u8 f.body 1 = n at ht ⊢
    intro v
    refine ⟨fun hfree => exec_refused h (ownAcknowledge_missing ht hreason (decide_eq_true hfree)), fun hfree hn => ?_, fun hn => ?_⟩
    · exact exec_refused h (ownAcknowledge_state ht hreason (decide_eq_false hfree) (.inr hn))
    · have hfree : v.state ≠ .free := fun hf => by
        rw [slotNeed, hf] at hn
        exact nomatch hn
      have hframe := acknowledge_incident_frame n (if u8 f.body 4 = 0 then .new else .restored) s
      obtain ⟨hseen, hfreed⟩ := acknowledge_incident_slot n s
      refine ⟨_, exec_taken h (ownAcknowledge_taken ht hreason (decide_eq_false hfree) rfl hn), hframe.eq, hframe.storms, ?_,
        fun m hm => acknowledge_incident_slot_ne hm _ s, fun hw key r hr => ?_⟩
      · by_cases hnew : u8 f.body 4 = 0
        · rw [if_pos hnew, if_pos hnew]; exact hseen
        · rw [if_neg hnew, if_neg hnew]; exact hfreed
      · obtain ⟨hmarked, hleft⟩ := acknowledge_incident_record hw n hr
        by_cases hnew : u8 f.body 4 = 0
        · simp only [hnew, if_true, true_and]; exact hmarked
        · simp only [hnew, if_false, false_and]; exact hleft
  · refine exec_refused h (ownAcknowledge_badValue ?_)
    by_cases h4 : 2 ≤ u8 f.body 4
    · exact .inr (List.getElem?_eq_none h4)
    · exact .inl (bodyThing_none (by omega))

end Sys2Proof.Proofs
end

section
/-! PROOF. The wire formats (R165, R176, R179, R180): the fields of a list of bytes, the bits of a character, and the console frame and the
field frame, each read back as it was sent. -/

namespace Sys2Proof.Machine

/-! ## Lengths of fields (R176) -/

@[simp] theorem enc8_length (n : Nat) : (enc8 n).length = 1 := rfl
@[simp] theorem enc16_length (n : Nat) : (enc16 n).length = 2 := rfl
@[simp] theorem enc32_length (n : Nat) : (enc32 n).length = 4 := rfl
@[simp] theorem encBool_length (b : Bool) : (encBool b).length = 1 := rfl
@[simp] theorem encEnum_length {α : Type} [DecidableEq α] (values : List α) (v : α) : (encEnum values v).length = 1 := rfl

/-- R176: an optional field is as long absent as present. -/
theorem encOpt_length {α : Type} {w : Nat} {enc : α → List Byte} (h : ∀ v, (enc v).length = w) (o : Option α) :
    (encOpt w enc o).length = 1 + w := by
  cases o with
  | none => simp [encOpt, Nat.add_comm]
  | some v => simp [encOpt, h, Nat.add_comm]

/-! ## Reading fields -/

section
variable {a r : List Byte} {i n : Nat}

theorem u8_append_of_le (h : a.length ≤ i) : u8 (a ++ r) i = u8 r (i - a.length) := by
  rw [u8, u8, List.getD_append_right _ _ _ _ h]

theorem u16_append_of_le (h : a.length ≤ i) : u16 (a ++ r) i = u16 r (i - a.length) := by
  rw [u16, u16, u8_append_of_le h, u8_append_of_le (Nat.le_succ_of_le h), Nat.succ_sub h]

theorem u32_append_of_le (h : a.length ≤ i) : u32 (a ++ r) i = u32 r (i - a.length) := by
  rw [u32, u32, u16_append_of_le h, u16_append_of_le (Nat.le_add_right_of_le h), Nat.sub_add_comm h]

/-- A byte before the end of a part of a frame is a byte of the frame. -/
theorem u8_take (h : i < n) : u8 (a.take n) i = u8 a i := by
  simp [u8, List.getD_eq_getElem?_getD, h]

theorem u16_take (h : i + 1 < n) : u16 (a.take n) i = u16 a i := by
  rw [u16, u16, u8_take (Nat.lt_of_succ_lt h), u8_take h]

theorem u8_enc8 (n : Nat) (r : List Byte) : u8 (enc8 n ++ r) 0 = n % 256 := by simp [u8, enc8]

theorem u16_enc16 (n : Nat) (r : List Byte) : u16 (enc16 n ++ r) 0 = n % 65536 := by
  simp [u16, u8, enc16]
  omega

theorem u32_enc32 (n : Nat) (r : List Byte) : u32 (enc32 n ++ r) 0 = n % 4294967296 := by
  simp [u32, u16, u8, enc32]
  omega

end

/-! ## The bits of a character (R165) -/

/-- The least significant bits of a number, first to last, give it back as far as they go. -/
theorem foldr_testBit (n x : Nat) : ((List.range n).map x.testBit).foldr (fun b k => b.toNat + 2 * k) 0 = x % 2 ^ n := by
  induction n generalizing x with
  | zero => simp [Nat.mod_one]
  | succ n ih =>
    have hrest : (List.range n).map (x.testBit ∘ Nat.succ) = (List.range n).map (x / 2).testBit :=
      List.map_congr_left fun i _ => Nat.testBit_succ x i
    rw [List.range_succ_eq_map, List.map_cons, List.map_map, hrest, List.foldr_cons, ih, Nat.testBit_zero, Nat.pow_succ', Nat.mod_mul]
    rcases Nat.mod_two_eq_zero_or_one x with h | h <;> simp [h]

/-- R165: the data bits are read back whatever the stop bit. -/
theorem readCharacter_bits (b : Byte) (stop : Bool) : readCharacter ((characterBits b).take 9 ++ [stop]) = b := by
  have hbits : (((characterBits b).take 9 ++ [stop]).drop 1).take 8 = (List.range 8).map b.toNat.testBit := rfl
  rw [readCharacter, hbits, foldr_testBit, Nat.mod_eq_of_lt b.isLt, BitVec.ofNat_toNat, BitVec.setWidth_eq]

theorem characterBits_length (b : Byte) : (characterBits b).length = 10 := rfl

theorem characterBits_data (b : Byte) {i : Nat} (h : i < 8) : (characterBits b)[i + 1]? = some (b.getLsbD i) := by
  interval_cases i <;> rfl

/-- R165: the characters of a frame follow each other without a gap. -/
theorem frameBits_getElem {chars : List Byte} {i : Nat} {b : Byte} (h : chars[i]? = some b) {j : Nat} (hj : j < 10) :
    (frameBits chars)[10 * i + j]? = (characterBits b)[j]? := by
  have hcons (c : Byte) (cs : List Byte) : frameBits (c :: cs) = characterBits c ++ frameBits cs := rfl
  induction chars generalizing i with
  | nil => simp at h
  | cons c cs ih =>
    rw [hcons]
    cases i with
    | zero =>
      obtain rfl : c = b := by simpa using h
      rw [Nat.mul_zero, Nat.zero_add, List.getElem?_append_left (by rwa [characterBits_length])]
    | succ i =>
      rw [List.getElem?_append_right (by rw [characterBits_length]; omega), characterBits_length,
        show 10 * (i + 1) + j - 10 = 10 * i + j by omega, ih (by simpa using h)]

/-- R165: past the last bit of a frame the line is at the stop level. -/
theorem transmitLevel_past {chars : List Byte} {i : Nat} (h : 10 * chars.length ≤ i) : transmitLevel chars i = stopLevel := by
  rw [← frameBits_length] at h
  simp [transmitLevel, List.getElem?_eq_none h]

theorem transmitLevel_bit {chars : List Byte} {i : Nat} {b : Byte} (h : chars[i]? = some b) {j : Nat} (hj : j < 10) :
    some (transmitLevel chars (10 * i + j)) = (characterBits b)[j]? := by
  have hbit := frameBits_getElem h hj
  have hlt : j < (characterBits b).length := hj
  rw [List.getElem?_eq_getElem hlt] at hbit ⊢
  simp [transmitLevel, hbit]

/-! ## A lead byte, the bytes that the CRC covers, and the CRC (R176, R179, R180) -/

/-- R176, R179: what both kinds of frame are made of. -/
def sealedFrame (lead : Byte) (covered : List Byte) : List Byte := lead :: (covered ++ enc16 (crc16 covered).toNat)

section
variable (lead : Byte) (covered : List Byte)

theorem sealedFrame_length : (sealedFrame lead covered).length = 3 + covered.length := by
  simp [sealedFrame]
  omega

theorem sealedFrame_covered {n : Nat} (hn : n = covered.length) : ((sealedFrame lead covered).drop 1).take n = covered := by
  rw [hn]
  exact List.take_left

theorem sealedFrame_crc {i : Nat} (hi : i = covered.length + 1) : u16 (sealedFrame lead covered) i = (crc16 covered).toNat := by
  have htail : u16 (sealedFrame lead covered) (covered.length + 1) = u16 (covered ++ enc16 (crc16 covered).toNat) covered.length := rfl
  have hcrc := u16_enc16 (crc16 covered).toNat []
  rw [List.append_nil] at hcrc
  rw [hi, htail, u16_append_of_le (Nat.le_refl _), Nat.sub_self, hcrc, Nat.mod_eq_of_lt (crc16 covered).isLt]

end

/-! ## The console frame (R166, R167, R176) -/

section
variable (f : Frame)

theorem frameChars_eq : frameChars f = sealedFrame 0xA6#8 (frameCovered f) := rfl

theorem frameCovered_length : (frameCovered f).length = 4 + f.body.length := by
  simp [frameCovered]
  omega

theorem frameChars_length : (frameChars f).length = 7 + f.body.length := by
  rw [frameChars_eq, sealedFrame_length, frameCovered_length]
  omega

theorem rxComplete_iff (chars : List Byte) : rxComplete chars = true ↔ 3 ≤ chars.length ∧ chars.length = 7 + rxLength chars := by
  simp [rxComplete]

variable {f} (h : f.body.length ≤ 1000)
include h

theorem rxLength_frameChars : rxLength (frameChars f) = f.body.length := by
  have hfield : rxLength (frameChars f) = f.body.length % 65536 :=
    u16_enc16 f.body.length (f.kind :: f.tag :: (f.body ++ enc16 (crc16 (frameCovered f)).toNat))
  omega

theorem rxComplete_frameChars : rxComplete (frameChars f) = true := by
  rw [rxComplete_iff, rxLength_frameChars h, frameChars_length]
  omega

/-- R166: the frame is complete with its last character and not before. -/
theorem rxComplete_take {n : Nat} (hn : n < (frameChars f).length) : rxComplete ((frameChars f).take n) = false := by
  rw [Bool.eq_false_iff, ne_eq, rxComplete_iff, List.length_take_of_le hn.le]
  rintro ⟨h3, hlen⟩
  rw [rxLength, u16_take h3, ← rxLength, rxLength_frameChars h, ← frameChars_length] at hlen
  omega

/-- R167, R180: the CRC that is sent is the one computed on receipt. -/
theorem rxGood_frameChars : rxGood (frameChars f) = true := by
  have hlen := frameCovered_length f
  have hcov : ((frameChars f).drop 1).take (4 + f.body.length) = frameCovered f := by
    rw [frameChars_eq, sealedFrame_covered _ _ hlen.symm]
  have hcrc : u16 (frameChars f) (5 + f.body.length) = (crc16 (frameCovered f)).toNat := by
    rw [frameChars_eq, sealedFrame_crc _ _ (by omega)]
  simp only [rxGood, rxLength_frameChars h, hcov, hcrc, decide_true]

theorem rxFrame_frameChars : rxFrame (frameChars f) = f := by
  rw [rxFrame, rxLength_frameChars h]
  congr 1
  exact List.take_left

end

/-! ## The field frame (R37, R179) -/

section
variable (a : Nat) (c : Byte) (body : List Byte)

/-- R179: the bytes that the CRC of a field frame covers. -/
def fieldCovered : List Byte := enc8 a ++ [c] ++ enc8 body.length ++ body

theorem fieldFrame_eq : fieldFrame a c body = sealedFrame 0xC3#8 (fieldCovered a c body) := rfl

theorem address_fieldFrame : u8 (fieldFrame a c body) 1 = a % 256 := BitVec.toNat_ofNat a 8

theorem fieldCovered_length : (fieldCovered a c body).length = 3 + body.length := by
  simp [fieldCovered]
  omega

theorem replyHeld_iff (chars : List Byte) :
    replyHeld chars = true ↔ 4 ≤ chars.length ∧ replyLength chars ≤ 240 ∧ chars.length = 6 + replyLength chars := by
  have htoo : replyTooLong chars = true ↔ 4 ≤ chars.length ∧ 240 < replyLength chars := by
    rw [replyTooLong, Bool.and_eq_true, decide_eq_true_eq, decide_eq_true_eq]
    rfl
  rw [replyHeld, Bool.and_eq_true, Bool.and_eq_true, Bool.not_eq_true', Bool.eq_false_iff, ne_eq, htoo, decide_eq_true_eq,
    decide_eq_true_eq]
  omega

variable {a c body} (h : body.length ≤ 240)
include h

theorem replyLength_fieldFrame : replyLength (fieldFrame a c body) = body.length :=
  (BitVec.toNat_ofNat body.length 8).trans (Nat.mod_eq_of_lt (by omega))

theorem replyHeld_fieldFrame : replyHeld (fieldFrame a c body) = true := by
  rw [replyHeld_iff, replyLength_fieldFrame h, fieldFrame_length]
  omega

/-- R37: the frame is held with its last character and not before. -/
theorem replyHeld_take {n : Nat} (hn : n < (fieldFrame a c body).length) : replyHeld ((fieldFrame a c body).take n) = false := by
  rw [Bool.eq_false_iff, ne_eq, replyHeld_iff, List.length_take_of_le hn.le]
  rintro ⟨h4, -, hlen⟩
  rw [replyLength, u8_take h4, ← replyLength, replyLength_fieldFrame h, ← fieldFrame_length a c body] at hlen
  omega

/-- R39 check 1: the CRC that is sent is the one computed on receipt. -/
theorem replyCrcGood_fieldFrame : replyCrcGood (fieldFrame a c body) = true := by
  have hlen := fieldCovered_length a c body
  have hcov : ((fieldFrame a c body).drop 1).take (3 + body.length) = fieldCovered a c body := by
    rw [fieldFrame_eq, sealedFrame_covered _ _ hlen.symm]
  have hcrc : u16 (fieldFrame a c body) (4 + body.length) = (crc16 (fieldCovered a c body)).toNat := by
    rw [fieldFrame_eq, sealedFrame_crc _ _ (by omega)]
  simp only [replyCrcGood, replyLength_fieldFrame h, hcov, hcrc, decide_true]

theorem replyBody_fieldFrame : replyBody (fieldFrame a c body) = body := by
  rw [replyBody, replyLength_fieldFrame h]
  exact List.take_left

end

end Sys2Proof.Machine

namespace Sys2Proof.Proofs

open Sys2Proof.Machine

/-- Settles O37: what is sent is read back, frame by frame and character by character. -/
theorem consoleFrameRoundTrip : Obligations.ConsoleFrameRoundTrip := by
  refine ⟨fun f h => ⟨rxComplete_frameChars h, rxGood_frameChars h, rxFrame_frameChars h, fun n => rxComplete_take h⟩,
    fun b stop => ⟨characterBits_length b, rfl, rfl, fun i => characterBits_data b, readCharacter_bits b stop⟩,
    fun k i j => ⟨?_, fun b hb => transmitLevel_bit hb⟩⟩
  rintro (hidle | hpast)
  · rw [txdLevel, hidle]
    exact transmitLevel_past (Nat.zero_le i)
  · exact transmitLevel_past hpast

/-- Settles O38. -/
theorem fieldFrameRoundTrip : Obligations.FieldFrameRoundTrip := by
  intro a c body ha h
  have haddress : u8 (fieldFrame a c body) 1 = a := (address_fieldFrame a c body).trans (Nat.mod_eq_of_lt ha)
  exact ⟨replyHeld_fieldFrame h, replyCrcGood_fieldFrame h, haddress, rfl, replyBody_fieldFrame h, fun n => replyHeld_take h⟩

end Sys2Proof.Proofs
end

section
/-! PROOF. How the requests are served (R169 to R171, R177): what a refusal leaves as it is, the checks that come before the owner's, and the
request commands that come out of turn. -/

namespace Sys2Proof.Machine

/-! ## Refusals (R170) -/

/-- R170: an owner's answer, other than OK, is the state as it stood, and nothing follows its reply. -/
def RefusedUnchanged (s : State) (o : State × Served) : Prop := o.2.result ≠ .ok → o.1 = s ∧ o.2.after = .nothing

namespace RefusedUnchanged
variable {s : State} {o : State × Served}

theorem refuse {r : Result} : RefusedUnchanged s (s, refuse r) := fun _ => ⟨rfl, rfl⟩

theorem taken (h : o.2.result = .ok := by rfl) : RefusedUnchanged s o := fun hn => absurd h hn

/-- R10: an answer after checks is a refusal, or the effect of a taken request. -/
theorem answer {checks : List (Bool × Result)} (h : o.2.result = .ok := by rfl) : RefusedUnchanged s (answer checks s o) := by
  unfold Machine.answer
  split
  exacts [.refuse, .taken h]

end RefusedUnchanged

section
variable (b : List Byte) (s : State)

/-! ### Asset Directory -/

theorem ownDefineStation_refusal : RefusedUnchanged s (ownDefineStation b s) := by
  unfold ownDefineStation
  split
  exacts [.refuse, .answer]

theorem ownRemoveStation_refusal : RefusedUnchanged s (ownRemoveStation b s) := by
  unfold ownRemoveStation
  dsimp only
  split
  · exact .refuse
  · split
    exacts [.refuse, .answer]

theorem ownDefineAsset_refusal : RefusedUnchanged s (ownDefineAsset b s) := by
  unfold ownDefineAsset
  split
  · exact .refuse
  · split
    exacts [.refuse, .answer]

theorem ownRemoveAsset_refusal : RefusedUnchanged s (ownRemoveAsset b s) := by
  unfold ownRemoveAsset
  dsimp only
  split
  · exact .refuse
  · split
    exacts [.refuse, .answer]

theorem ownSetProfile_refusal : RefusedUnchanged s (ownSetProfile b s) := by
  unfold ownSetProfile
  split
  exacts [.refuse, .taken]

theorem ownSetArea_refusal : RefusedUnchanged s (ownSetArea b s) := by
  unfold ownSetArea
  split
  exacts [.refuse, .taken]

theorem ownReadStation_refusal : RefusedUnchanged s (ownReadStation b s) := by
  unfold ownReadStation
  dsimp only
  split
  · exact .refuse
  · split
    exacts [.refuse, .taken]

theorem ownReadAsset_refusal : RefusedUnchanged s (ownReadAsset b s) := by
  unfold ownReadAsset
  dsimp only
  split
  · exact .refuse
  · split
    exacts [.refuse, .taken]

theorem ownReadProfile_refusal : RefusedUnchanged s (ownReadProfile b s) := by
  unfold ownReadProfile
  split
  exacts [.refuse, .taken]

theorem ownRelearn_refusal : RefusedUnchanged s (ownRelearn b s) := by
  unfold ownRelearn
  dsimp only
  split
  · exact .refuse
  · split
    exacts [.refuse, .answer]

/-! ### Timebase and Daylight Gate -/

theorem ownClockRetry_refusal : RefusedUnchanged s (ownClockRetry b s) := .answer

theorem ownSetDaylightSource_refusal : RefusedUnchanged s (ownSetDaylightSource b s) := by
  unfold ownSetDaylightSource
  split
  exacts [.refuse, .answer]

theorem ownSetDaylight_refusal : RefusedUnchanged s (ownSetDaylight b s) := by
  unfold ownSetDaylight
  split
  exacts [.answer, .answer, .refuse]

/-! ### Field lines -/

theorem ownSetLine_refusal : RefusedUnchanged s (ownSetLine b s) := by
  unfold ownSetLine
  split
  exacts [.refuse, .answer]

theorem ownStartLine_refusal : RefusedUnchanged s (ownStartLine b s) := by
  unfold ownStartLine
  split
  exacts [.refuse, .answer]

theorem ownStopLine_refusal : RefusedUnchanged s (ownStopLine b s) := by
  unfold ownStopLine
  split
  exacts [.refuse, .taken]

theorem ownSetSweepMode_refusal : RefusedUnchanged s (ownSetSweepMode b s) := by
  unfold ownSetSweepMode
  split
  exacts [.taken, .refuse]

theorem ownInterrogate_refusal : RefusedUnchanged s (ownInterrogate b s) := by
  unfold ownInterrogate
  dsimp only
  split
  · exact .refuse
  · split
    · exact .refuse
    · split
      · exact .refuse
      · split
        · exact .taken
        · split
          exacts [.refuse, .taken]

/-! ### Fault table, Incident Table, queue -/

theorem ownReadRecord_refusal : RefusedUnchanged s (ownReadRecord b s) := by
  unfold ownReadRecord
  split
  · exact .refuse
  · split
    exacts [.refuse, .taken]

theorem ownListRecords_refusal : RefusedUnchanged s (ownListRecords b s) := by
  unfold ownListRecords
  split
  · exact .refuse
  · split
    exacts [.taken, .refuse]

theorem ownReadIncident_refusal : RefusedUnchanged s (ownReadIncident b s) := by
  unfold ownReadIncident
  dsimp only
  split
  exacts [.taken, .refuse]

theorem ownListIncidents_refusal : RefusedUnchanged s (ownListIncidents b s) := by
  unfold ownListIncidents
  split
  exacts [.taken, .refuse]

theorem ownBreakOut_refusal : RefusedUnchanged s (ownBreakOut b s) := by
  unfold ownBreakOut
  dsimp only
  split
  exacts [.refuse, .answer]

theorem ownListQueue_refusal : RefusedUnchanged s (ownListQueue b s) := by
  unfold ownListQueue
  split
  exacts [.taken, .refuse]

theorem ownAcknowledge_refusal : RefusedUnchanged s (ownAcknowledge b s) := by
  unfold ownAcknowledge
  split
  exacts [.answer, .refuse]

theorem ownSetAlert_refusal : RefusedUnchanged s (ownSetAlert b s) := by
  unfold ownSetAlert
  split
  exacts [.refuse, .taken]

theorem ownSetNotices_refusal : RefusedUnchanged s (ownSetNotices b s) := by
  unfold ownSetNotices
  split
  exacts [.refuse, .taken]

/-! ### Console Link -/

theorem ownSetConsoleRate_refusal : RefusedUnchanged s (ownSetConsoleRate b s) := by
  unfold ownSetConsoleRate
  split
  · exact .refuse
  · split
    exacts [.taken, .taken]

end

/-! ## The 34 request commands (R177) -/

/-- R169: the command serves requests of a kind of R177, by an owner whose refusals change nothing. -/
def ServesKind (p : Instr × Nat) : Prop :=
  ∃ own : List Byte → State → State × Served, (∀ s, exec p.1 s = .next (serve p.2 own s)) ∧ (∀ b s, RefusedUnchanged s (own b s)) ∧
    (requestKind p.2).isSome = true

theorem ServesKind.of_owner {c : Instr} {code : Nat} {own : List Byte → State → State × Served} (h : ∀ b s, RefusedUnchanged s (own b s))
    (hx : ∀ s, exec c s = .next (serve code own s) := by exact fun _ => rfl) (hk : (requestKind code).isSome = true := by decide) :
    ServesKind (c, code) := ⟨own, hx, h, hk⟩

/-- R177: every request command serves its kind, one owner each. -/
theorem servesKind_of_mem : ∀ p ∈ requestCommands, ServesKind p := by
  simp only [requestCommands, List.forall_mem_cons, List.not_mem_nil, false_imp_iff, implies_true, and_true]
  exact ⟨.of_owner ownDefineStation_refusal, .of_owner ownRemoveStation_refusal, .of_owner ownDefineAsset_refusal,
    .of_owner ownRemoveAsset_refusal, .of_owner ownSetProfile_refusal, .of_owner ownSetArea_refusal,
    .of_owner ownReadStation_refusal, .of_owner ownReadAsset_refusal, .of_owner ownReadProfile_refusal,
    .of_owner (own := ownSetTime) fun _ _ => .taken, .of_owner ownClockRetry_refusal, .of_owner ownSetDaylightSource_refusal,
    .of_owner ownSetDaylight_refusal, .of_owner ownSetLine_refusal, .of_owner ownStartLine_refusal, .of_owner ownStopLine_refusal,
    .of_owner ownSetSweepMode_refusal, .of_owner ownInterrogate_refusal, .of_owner ownRelearn_refusal,
    .of_owner ownReadRecord_refusal, .of_owner ownListRecords_refusal, .of_owner ownReadIncident_refusal,
    .of_owner ownListIncidents_refusal, .of_owner ownBreakOut_refusal, .of_owner (own := ownPeek) fun _ _ => .taken,
    .of_owner ownListQueue_refusal, .of_owner ownAcknowledge_refusal, .of_owner ownSetAlert_refusal,
    .of_owner ownSetNotices_refusal, .of_owner (own := ownReadStatus) fun _ _ => .taken, .of_owner ownSetConsoleRate_refusal,
    .of_owner (own := ownSaveSettings) fun _ _ => .taken, .of_owner (own := ownRestart) fun _ _ => .taken,
    .of_owner (own := ownFactoryDefaults) fun _ _ => .taken⟩

/-! ## The checks before the owner's (R169) -/

/-- R169, R10: a frame in its turn, of its kind's body length, is refused while the store saves where its kind is so marked. -/
theorem serve_busy {s : State} {f : Frame} {code : Nat} {k : RequestKind} (own : List Byte → State → State × Served)
    (hk : requestKind code = some k) (hs : settled s = true) (hf : s.link.requests.head? = some f) (hc : f.kind.toNat = code)
    (hm : mayServe s = true) (hl : f.body.length = k.length) (hb : k.busySaving = true) (hv : s.store.saving.isSome = true) :
    serve code own s = withReply f .busy [] .nothing s := by
  obtain ⟨rest, hr⟩ := List.head?_eq_some_iff.mp hf
  have hp : precheck k f s = some .busy := by simp [precheck, hl, hb, hv]
  simp [serve, settle_of_settled hs, hk, hr, hm, hc, hp, reply_refuse]

/-- R169 step 1: a frame in its turn whose kind is none of R177. -/
theorem serveUnknown_badKind {s : State} {f : Frame} (hs : settled s = true) (hf : s.link.requests.head? = some f)
    (hk : requestKind f.kind.toNat = none) (hm : mayServe s = true) : serveUnknown s = withReply f .badKind [] .nothing s := by
  obtain ⟨rest, hr⟩ := List.head?_eq_some_iff.mp hf
  simp [serveUnknown, settle_of_settled hs, hr, hm, hk, reply_refuse]

/-! ## Out of turn (R171) -/

theorem mayServe_iff (s : State) :
    mayServe s = true ↔ s.link.transmitter = .idle ∧ s.link.after = .nothing ∧ s.dispatch.notice = none := by
  simp [mayServe, and_assoc]

/-- R171, log entries 2 and 16: nothing is served while the part may not serve, nor where no frame of the kind is the oldest. -/
theorem serve_outOfTurn {s : State} {code : Nat} (own : List Byte → State → State × Served) (hs : settled s = true)
    (h : mayServe s = false ∨ ∀ f, s.link.requests.head? = some f → f.kind.toNat ≠ code) : serve code own s = s := by
  simp only [serve, settle_of_settled hs]
  split
  · rename_i k f rest _ hr
    refine if_neg fun ⟨hm, hc⟩ => ?_
    obtain h | h := h
    · exact Bool.noConfusion (h.symm.trans hm)
    · exact h f (by rw [hr]; rfl) hc
  · rfl

end Sys2Proof.Machine

namespace Sys2Proof.Proofs

open Sys2Proof.Machine

/-- Settles O41. A presented request is answered by its owner, which sends no data and changes nothing where its result is not OK. -/
theorem refusedRequestChangesNothing : Obligations.RefusedRequestChangesNothing := by
  refine ⟨fun c code s f hmem h => ?_, fun s f hs hf hk hm => ?_⟩
  · obtain ⟨own, hx, hrefused, hkind⟩ := servesKind_of_mem _ hmem
    refine ⟨(own f.body s).1, (own f.body s).2.result, _, (own f.body s).2.after, exec_presents h (hx s) hkind, fun hr => ?_⟩
    obtain ⟨hstate, hafter⟩ := hrefused f.body s hr
    exact ⟨hstate, if_neg hr, hafter⟩
  · exact congrArg Host.Outcome.next (serveUnknown_badKind hs hf hk hm)

/-- Settles O42: body length, then saving, then the turn, each before the owner is asked. -/
theorem requestsAreServedInTurn : Obligations.RequestsAreServedInTurn := by
  refine ⟨fun c code s f k hmem hs hf hc hm hk => ?_, fun c code s hmem hs h => ?_⟩
  · obtain ⟨own, hx, -⟩ := servesKind_of_mem _ hmem
    rw [hx]
    exact ⟨fun hl => congrArg _ (serve_badLength own hk hs hf hc hm hl), fun hl hb hv => congrArg _ (serve_busy own hk hs hf hc hm hl hb hv)⟩
  · obtain ⟨own, hx, -⟩ := servesKind_of_mem _ hmem
    rw [hx, serve_outOfTurn own hs]
    obtain ht | hn | ha | hr | ⟨f, hf, hc⟩ := h
    · exact .inl (Bool.eq_false_iff.mpr fun hm => ht ((mayServe_iff s).mp hm).1)
    · exact .inl (Bool.eq_false_iff.mpr fun hm => by simp [((mayServe_iff s).mp hm).2.2] at hn)
    · exact .inl (Bool.eq_false_iff.mpr fun hm => ha ((mayServe_iff s).mp hm).2.1)
    · exact .inr (by simp [hr])
    · exact .inr fun g hg => by rwa [← Option.some_inj.mp (hf.symm.trans hg)]

end Sys2Proof.Proofs
end

section
/-! PROOF. The Console Link's receiver (R166 to R168), its transmitter (R171, R172), and the requests READ-STATUS (R174) and SET-CONSOLE-RATE
(R172). -/

namespace Sys2Proof.Machine

/-! ## The receiver (R166 to R168) -/

/-- R166: a character that gives a body length above 1000 is the second length byte. -/
theorem rxTooLong_append (chars : List Byte) (b : Byte) :
    rxTooLong (chars ++ [b]) = true ↔ chars.length = 2 ∧ 1000 < u16 (chars ++ [b]) 1 := by
  rw [rxTooLong, Bool.and_eq_true, decide_eq_true_eq, decide_eq_true_eq, List.length_append, List.length_singleton, Nat.succ_inj]
  rfl

/-- R166: a frame that is discarded leaves the receiver in HUNT. -/
theorem dropFrame_eq (s : State) : dropFrame s =
    { s with link := { s.link with receiver := none, flags := { s.link.flags with linkFault := true } } } := rfl

/-- R168: a frame with a good CRC joins the request intake, if fewer than two wait. -/
theorem offerFrame_huntAgain (f : Frame) (s : State) : offerFrame f (huntAgain s) =
    if s.link.requests.length < 2 then { s with link := { s.link with receiver := none, requests := s.link.requests ++ [f] } }
    else { s with link := { s.link with receiver := none, flags := { s.link.flags with overrun := true } } } := rfl

section
variable {s : State} {chars : List Byte}

theorem consoleCharacter_hunt (h : s.link.receiver = none) (b : Byte) : consoleCharacter b s =
    if b = 0xA6#8 then { s with link := { s.link with receiver := some [b] } } else s := by
  rw [consoleCharacter, h]
  rfl

variable (h : s.link.receiver = some chars)
include h

theorem consoleCharacter_inFrame (hc : rxComplete chars = false) (b : Byte) : consoleCharacter b s =
    if chars.length = 2 ∧ 1000 < u16 (chars ++ [b]) 1 then dropFrame s
    else { s with link := { s.link with receiver := some (chars ++ [b]) } } := by
  simp only [consoleCharacter, h, hc, Bool.false_eq_true, if_false, rxTooLong_append]
  rfl

theorem checkFrame_complete (hc : rxComplete chars = true) : checkFrame s =
    if rxGood chars = false then dropFrame s else offerFrame (rxFrame chars) (huntAgain s) := by
  simp only [checkFrame, h, hc, if_true]
  cases rxGood chars <;> rfl

theorem consoleGap_incomplete (hc : rxComplete chars = false) : consoleGap s = dropFrame s := by
  simp [consoleGap, h, hc]

end

/-! ## The transmitter (R171, R178) -/

/-- R178: the summary of an item takes 14 bytes. -/
theorem encSummary_length (x : Summary) : (encSummary x).length = 14 := by
  obtain ⟨⟨thing, _, _, _⟩, detail⟩ := x
  cases thing <;> cases detail <;> rfl

/-- R171: the idle transmitter takes the pending notice. -/
theorem sendNotice_idle {s : State} {x : Option Summary} (hx : s.dispatch.notice = some x) (ht : s.link.transmitter = .idle)
    (ha : s.link.after = .nothing) : sendNotice s = { s with
      dispatch := { s.dispatch with notice := none }
      link := { s.link with transmitter := .notice (noticeFrame x) (frameChars (noticeFrame x)) } } := by
  rw [sendNotice, hx]
  exact if_pos ⟨ht, ha⟩

theorem finishSending_reply {s : State} {f : Frame} {chars : List Byte} {after : AfterReply} (h : s.link.transmitter = .reply f chars after) :
    finishSending s = { s with link := { s.link with transmitter := .idle, requests := s.link.requests.tail, after := after } } := by
  rw [finishSending, h, ← List.drop_one]
  rfl

theorem finishSending_notice {s : State} {f : Frame} {chars : List Byte} (h : s.link.transmitter = .notice f chars) :
    finishSending s = { s with link := { s.link with transmitter := .idle } } := by
  rw [finishSending, h]
  rfl

/-! ## SET-CONSOLE-RATE (R172) -/

theorem ownSetConsoleRate_inForce {b : List Byte} {s : State} (h : decEnum consoleRates (u8 b 0) = some s.link.rate) :
    ownSetConsoleRate b s = (s, ok) := by
  simp [ownSetConsoleRate, h]

theorem ownSetConsoleRate_other {b : List Byte} {s : State} {r : ConsoleRate} (h : decEnum consoleRates (u8 b 0) = some r)
    (hr : r ≠ s.link.rate) : ownSetConsoleRate b s =
      ({ s with link := { s.link with rate := r } }, { result := .ok, after := .rateSwitch }) := by
  simp [ownSetConsoleRate, h, hr, modLink]

section
variable {s : State} (h : s.link.after = .rateSwitch)
include h

/-- R172: the line takes the stored rate; a frame that holds all its bytes is kept for its check. -/
theorem switchRate_kept (hr : ∀ chars, s.link.receiver = some chars → rxComplete chars = true) :
    switchRate s = { s with link := { s.link with lineRate := s.link.rate, after := .nothing } } := by
  rw [switchRate, if_pos h]
  dsimp only
  split
  · rfl
  · rename_i chars hc
    exact if_pos (hr chars hc)

/-- R172: a frame that still lacks bytes is discarded. -/
theorem switchRate_drops {chars : List Byte} (hr : s.link.receiver = some chars) (hc : rxComplete chars = false) :
    switchRate s = { s with link := { s.link with
      lineRate := s.link.rate, after := .nothing, receiver := none, flags := { s.link.flags with linkFault := true } } } := by
  have hr' : (modLink (fun k => { k with lineRate := k.rate, after := .nothing }) s).link.receiver = some chars := hr
  simp only [switchRate, if_pos h, hr', hc, Bool.false_eq_true, if_false]
  rfl

end

/-! ## READ-STATUS (R174) -/

@[simp] theorem encSource_length (v : GateSource) : (encSource v).length = 3 := by cases v <;> rfl

@[simp] theorem encSlotCounts_length (slots : List IntakeSlot) : (encSlotCounts slots).length = 3 := rfl

/-- R174: the four lines take a byte each. -/
theorem lineStates_length (s : State) : (fieldLines.flatMap fun l => encEnum lineStates (lineOf s l).state).length = 4 := rfl

theorem arrival_length (o : Option Seconds) : (encOpt 4 enc32 o).length = 5 := encOpt_length (w := 4) (fun _ => rfl) o

/-- R174: 32 bytes of the status come before the counts of records and of queued items. -/
theorem encStatus_split (s : State) : ∃ before, before.length = 32 ∧
    encStatus s = before ++ enc16 s.faults.length ++ enc8 s.dispatch.queue.length ++ enc16 (waitingItems s).length ++
      enc8 (openIncidents s) ++ encBool s.store.saving.isSome := by
  refine ⟨_, ?_, rfl⟩
  simp only [List.length_append, enc8_length, enc16_length, enc32_length, encEnum_length, encBool_length, encSource_length,
    lineStates_length, encSlotCounts_length, arrival_length]

theorem encStatus_length (s : State) : (encStatus s).length = 39 := by
  obtain ⟨before, hlen, heq⟩ := encStatus_split s
  simp [heq, hlen]

/-- R174: the flags as a byte. -/
theorem stickyByte_lt (f : Sticky) : stickyByte f < 64 := by
  have := f.linkFault.toNat_lt
  have := f.overrun.toNat_lt
  have := f.clockFail.toNat_lt
  have := f.tableFull.toNat_lt
  have := f.saveFailed.toNat_lt
  have := f.unmapped.toNat_lt
  unfold stickyByte
  omega

theorem wallTime_lt (s : State) : wallTime s < 4294967296 := Nat.mod_lt _ (by decide)

/-- R174: the first fields of the status: flags, run-second and wall time. -/
theorem encStatus_head (s : State) : u8 (encStatus s) 0 = stickyByte s.link.flags ∧ u32 (encStatus s) 1 = now s % 4294967296 ∧
    u32 (encStatus s) 5 = wallTime s := by
  simp only [encStatus, List.append_assoc]
  refine ⟨?_, ?_, ?_⟩
  · have := stickyByte_lt s.link.flags
    rw [u8_enc8]
    omega
  · rw [u32_append_of_le (by simp)]
    exact u32_enc32 _ _
  · rw [u32_append_of_le (by simp), u32_append_of_le (by simp)]
    exact (u32_enc32 _ _).trans (Nat.mod_eq_of_lt (wallTime_lt s))

theorem encStatus_counts (s : State) :
    u16 (encStatus s) 32 = s.faults.length % 65536 ∧ u8 (encStatus s) 34 = s.dispatch.queue.length % 256 := by
  obtain ⟨before, hlen, heq⟩ := encStatus_split s
  simp only [heq, List.append_assoc]
  constructor
  · rw [u16_append_of_le hlen.le, hlen]
    exact u16_enc16 _ _
  · rw [u8_append_of_le (by omega), u8_append_of_le (by rw [hlen, enc16_length]), hlen]
    exact u8_enc8 _ _

end Sys2Proof.Machine

namespace Sys2Proof.Proofs

open Sys2Proof.Machine

/-- Settles O36: what the receiver does with a character, a complete frame and a gap. -/
theorem consoleFramesAreReceived : Obligations.ConsoleFramesAreReceived := by
  refine ⟨fun s b hs => ⟨fun h => ?_, fun chars h hc => ?_⟩, fun s chars hs h => ⟨fun hc => ?_, fun hc => ?_⟩⟩
  · rw [exec_settled (act := consoleCharacter b) hs, consoleCharacter_hunt h]
  · rw [exec_settled (act := consoleCharacter b) hs, consoleCharacter_inFrame h hc, dropFrame_eq]
  · rw [exec_settled (act := checkFrame) hs, checkFrame_complete h hc, dropFrame_eq, offerFrame_huntAgain]
  · rw [exec_settled (act := consoleGap) hs, consoleGap_incomplete h hc, dropFrame_eq]

/-- Settles O39: the notice that the idle transmitter takes, and what stays when the last stop bit has gone. -/
theorem transmitterSendsAndFinishes : Obligations.TransmitterSendsAndFinishes := by
  refine ⟨fun s x hs hx ht ha => ⟨encOpt 14 encSummary x, encOpt_length encSummary_length x, ?_, ?_, ?_⟩,
    fun s f chars after hs => ⟨fun h => ?_, fun h => ?_⟩⟩
  · rintro rfl
    rfl
  · intro hsome
    obtain ⟨v, rfl⟩ := Option.isSome_iff_exists.mp hsome
    rfl
  · rw [exec_settled (act := sendNotice) hs, sendNotice_idle hx ht ha]
    rfl
  · rw [exec_settled (act := finishSending) hs, finishSending_reply h]
  · rw [exec_settled (act := finishSending) hs, finishSending_notice h]

/-- Settles O40: the rate that a request stores, and the switch after its reply. -/
theorem consoleRateChangesAfterReply : Obligations.ConsoleRateChangesAfterReply := by
  refine ⟨fun s f r h hr => ?_, fun s hs h => ?_⟩
  · by_cases heq : r = s.link.rate
    · rw [if_pos heq]
      exact exec_taken h (ownSetConsoleRate_inForce (heq ▸ hr))
    · rw [if_neg heq, exec_presents (own := ownSetConsoleRate) h, ownSetConsoleRate_other hr heq]
      rfl
  · rw [exec_settled (act := switchRate) hs]
    split
    · rename_i hnone
      rw [switchRate_kept h fun chars hr => nomatch hnone.symm.trans hr]
    · rename_i chars hr
      split
      · rename_i hc
        rw [switchRate_kept h fun other ho => by rwa [← Option.some_inj.mp (hr.symm.trans ho)]]
      · rename_i hc
        rw [switchRate_drops h hr (Bool.eq_false_iff.mpr hc)]

/-- Settles O44: the status is read field by field. -/
theorem readStatusClearsFlags : Obligations.ReadStatusClearsFlags := by
  intro s f h
  obtain ⟨hflags, hnow, hwall⟩ := encStatus_head s
  obtain ⟨hfaults, hqueue⟩ := encStatus_counts s
  refine ⟨encStatus s, exec_taken h rfl, encStatus_length s, ?_, hnow, hwall, hfaults, hqueue⟩
  rw [hflags, stickyByte]
  omega

end Sys2Proof.Proofs
end

section
/-! PROOF. The Settings Store, start-up and the resets (R56, R181 to R186): the lines that start by themselves, the configuration that start-up
loads and the point maps rebuilt from it (R2), what RESTART and FACTORY-DEFAULTS leave, the way of a save, and the invariants at reset. -/

namespace Sys2Proof.Machine

/-! ## Auto-start (R56) -/

/-- R56: what the starting of the lines makes of a controller c. -/
structure LineAutoStarted (c d : LineController) : Prop where
  settings : d.settings = c.settings
  off : c.settings.autoStart = false → d = c
  on : c.settings.autoStart = true → c.settings.mode = .continuous → d.state ≠ .stopped

theorem autoStartLine_off {s : State} {l : FieldLine} (h : (lineOf s l).settings.autoStart = false) : autoStartLine s l = s := by
  rw [autoStartLine, h]; rfl

theorem autoStartLine_on {s : State} {l : FieldLine} (h : (lineOf s l).settings.autoStart = true) : autoStartLine s l = startSweep l s :=
  if_pos h

theorem autoStartLine_lineFrame (s : State) (l : FieldLine) : LineFrame l s (autoStartLine s l) := by
  unfold autoStartLine
  split
  · exact (startSweep_boundary l s).toLineFrame
  · exact .refl l s

/-- R50, R51: a line in CONTINUOUS whose sweep has started rests or makes a visit. -/
theorem SweepStarted.running {l : FieldLine} {v : LineSettings} {stations : Table Station} {d : LineController}
    (h : SweepStarted l v stations d) (hm : v.mode = .continuous) : d.state ≠ .stopped := by
  cases hv : d.visit with
  | none =>
    obtain ⟨hrest, -⟩ := (h.unvisited hv).1 hm
    simp [hrest]
  | some w =>
    obtain ⟨-, -, -, -, -, -, hstate, -⟩ := h.visited w hv
    rcases hstate with hs | hs <;> simp [hs]

theorem autoStartLine_started {s : State} {l : FieldLine} (hl : (lineOf s l).list = []) :
    LineAutoStarted (lineOf s l) (lineOf (autoStartLine s l) l) where
  settings := (autoStartLine_lineFrame s l).settings
  off h := by rw [autoStartLine_off h]
  on h hm := by
    rw [autoStartLine_on h]
    exact (startSweep_started hl).running hm

theorem autoStartLines_other {l : FieldLine} {ls : List FieldLine} (h : l ∉ ls) (s : State) :
    lineOf (ls.foldl autoStartLine s) l = lineOf s l := by
  induction ls generalizing s with
  | nil => rfl
  | cons m ls ih =>
    obtain ⟨hm, hls⟩ := not_or.mp (mt List.mem_cons.mpr h)
    rw [List.foldl_cons, ih hls, (autoStartLine_lineFrame s m).others l hm]

/-- R56: the start of the lines starts each with nothing listed once. -/
theorem autoStartLines_started {l : FieldLine} {ls : List FieldLine} (hn : ls.Nodup) (hl : l ∈ ls) {s : State} (h : (lineOf s l).list = []) :
    LineAutoStarted (lineOf s l) (lineOf (ls.foldl autoStartLine s) l) := by
  induction ls generalizing s with
  | nil => cases hl
  | cons m ls ih =>
    obtain ⟨hm, hn⟩ := List.nodup_cons.mp hn
    rw [List.foldl_cons]
    by_cases heq : l = m
    · subst heq
      rw [autoStartLines_other hm]
      exact autoStartLine_started h
    · have hkeep := (autoStartLine_lineFrame s m).others l heq
      rw [← hkeep]
      exact ih hn ((List.mem_cons.mp hl).resolve_left heq) (by rw [hkeep]; exact h)

theorem autoStart_started {s : State} {l : FieldLine} (h : (lineOf s l).list = []) : LineAutoStarted (lineOf s l) (lineOf (autoStart s) l) :=
  autoStartLines_started (by decide) (by cases l <;> decide) h

theorem autoStart_frame (s : State) : autoStart s = { s with lines := (autoStart s).lines, intake := (autoStart s).intake } :=
  foldl_closed (P := fun t => t = { s with lines := t.lines, intake := t.intake })
    (fun t l h => (autoStartLine_lineFrame t l).frame.trans (by rw [h])) fieldLines s rfl

theorem autoStart_none {s : State} (h : ∀ l, (lineOf s l).settings.autoStart = false) : autoStart s = s :=
  List.foldl_fixed' (fun l => autoStartLine_off (h l)) fieldLines

/-- R56, R57: a line that a reset has left with its settings v, after the lines have started. -/
theorem autoStart_resetLine {s : State} {l : FieldLine} {v : LineSettings} (h : lineOf s l = resetLine v) :
    (lineOf (autoStart s) l).settings = v ∧ (v.autoStart = false → lineOf (autoStart s) l = { settings := v }) ∧
      (v.autoStart = true → v.mode = .continuous → (lineOf (autoStart s) l).state ≠ .stopped) := by
  obtain ⟨hset, hoff, hon⟩ := autoStart_started (s := s) (l := l) (by rw [h]; rfl)
  rw [h] at hset hoff hon
  exact ⟨hset, hoff, hon⟩

/-! ## The configuration that start-up loads (R184) -/

theorem startConfiguration_valid {k : Store} {i : Image} (hi : k.image = some i) (hv : i.valid = true) : startConfiguration k = i.contents := by
  simp only [startConfiguration, hi, hv, if_true]

theorem startConfiguration_invalid {k : Store} (h : ∀ i, k.image = some i → i.valid = false) : startConfiguration k = {} := by
  unfold startConfiguration
  split
  · rename_i i hi
    rw [h i hi]; rfl
  · rfl

/-! ## The directory of a configuration (R2, R184) -/

/-- A table whose entries have each been changed, keys kept, holds at a key the changed entry. -/
theorem Table.find_map_entries {α β : Type} (t : Table α) (f : Nat → α → β) (n : Nat) :
    Table.find (t.map fun e => (e.1, f e.1 e.2)) n = (Table.find t n).map (f n) := by
  induction t with
  | nil => rfl
  | cons e t ih =>
    by_cases h : e.1 = n
    · subst h; simp [Table.find]
    · simp [Table.find, h, ih]

/-- What is found after a list of insertions was inserted, or was there before. -/
theorem Table.find_insertions {α : Type} {ws : List (Nat × α)} {m : Table α} {p : Nat} {v : α}
    (h : Table.find (ws.foldl (fun m w => Table.insert m w.1 w.2) m) p = some v) : (p, v) ∈ ws ∨ Table.find m p = some v := by
  induction ws generalizing m with
  | nil => exact .inr h
  | cons w ws ih =>
    obtain hmem | hfind := ih h
    · exact .inl (List.mem_cons_of_mem w hmem)
    · by_cases hp : p = w.1
      · subst hp
        cases (Table.find_insert_self m w.1 w.2).symm.trans hfind
        exact .inl List.mem_cons_self
      · exact .inr ((Table.find_insert_ne m w.2 hp).symm.trans hfind)

/-- A value that was inserted, or was there before, is found when no insertion contradicts it. -/
theorem Table.find_insertions_of_unique {α : Type} {ws : List (Nat × α)} {m : Table α} {p : Nat} {v : α}
    (h : (p, v) ∈ ws ∨ Table.find m p = some v) (hu : ∀ w, (p, w) ∈ ws → w = v) :
    Table.find (ws.foldl (fun m w => Table.insert m w.1 w.2) m) p = some v := by
  induction ws generalizing m with
  | nil => simpa using h
  | cons w ws ih =>
    refine ih ?_ fun u hm => hu u (List.mem_cons_of_mem w hm)
    by_cases hp : p = w.1
    · subst hp
      exact .inr ((Table.find_insert_self m w.1 w.2).trans (congrArg some (hu w.2 List.mem_cons_self)))
    · rw [Table.find_insert_ne m w.2 hp]
      exact h.imp_left fun hm => (List.mem_cons.mp hm).resolve_left fun heq => hp (congrArg Prod.fst heq)

/-- R2: the point map entries that the assets on an outstation give, asset by asset and role by role. -/
def mapWrites (assets : Table (AssetSettings × Nat)) (n : Nat) : List (Nat × Nat × Role) :=
  assets.flatMap fun e => if e.2.1.station = n then (rolePoints e.2.1.points).map fun r => (r.1, e.1, r.2) else []

theorem rebuildMap_eq (assets : Table (AssetSettings × Nat)) (n : Nat) :
    rebuildMap assets n = (mapWrites assets n).foldl (fun m w => Table.insert m w.1 w.2) [] := by
  rw [mapWrites, List.foldl_flatMap, rebuildMap]
  congr
  funext m e
  split
  · rw [List.foldl_map]; rfl
  · rfl

theorem mem_mapWrites {assets : Table (AssetSettings × Nat)} {n p a : Nat} {role : Role} : (p, a, role) ∈ mapWrites assets n ↔
    ∃ e, (a, e) ∈ assets ∧ e.1.station = n ∧ (p, role) ∈ rolePoints e.1.points := by
  simp only [mapWrites, List.mem_flatMap, List.mem_ite_nil_right, List.mem_map, Prod.mk.injEq, Prod.exists]
  constructor
  · rintro ⟨b, v, x, hm, hs, q, r, hr, rfl, rfl, rfl⟩
    exact ⟨v, x, hm, hs, hr⟩
  · rintro ⟨v, x, hm, hs, hr⟩
    exact ⟨a, v, x, hm, hs, p, role, hr, rfl, rfl, rfl⟩

/-- R2: each entry of a rebuilt point map is a role point of an asset on the outstation. -/
theorem rebuildMap_sound {assets : Table (AssetSettings × Nat)} {n p a : Nat} {role : Role}
    (h : Table.find (rebuildMap assets n) p = some (a, role)) :
    ∃ e, (a, e) ∈ assets ∧ e.1.station = n ∧ (p, role) ∈ rolePoints e.1.points := by
  rw [rebuildMap_eq] at h
  obtain hw | hnil := Table.find_insertions h
  · exact mem_mapWrites.mp hw
  · cases hnil

/-- R2: a role point that no other asset or role on the outstation has is an entry of the rebuilt point map. -/
theorem rebuildMap_complete {assets : Table (AssetSettings × Nat)} {n p a : Nat} {role : Role} {e : AssetSettings × Nat}
    (hm : (a, e) ∈ assets) (hs : e.1.station = n) (hp : (p, role) ∈ rolePoints e.1.points)
    (hu : ∀ x ∈ assets, x.2.1.station = n → ∀ r, (p, r) ∈ rolePoints x.2.1.points → x.1 = a ∧ r = role) :
    Table.find (rebuildMap assets n) p = some (a, role) := by
  rw [rebuildMap_eq]
  refine Table.find_insertions_of_unique (.inl (mem_mapWrites.mpr ⟨e, hm, hs, hp⟩)) ?_
  rintro ⟨b, r⟩ hw
  obtain ⟨x, hx, hxs, hxp⟩ := mem_mapWrites.mp hw
  obtain ⟨rfl, rfl⟩ := hu (b, x) hx hxs r hxp
  rfl

/-- R184: an outstation that start-up loads has its settings, its rebuilt point map, and its reset values. -/
theorem find_loadDirectory_stations (c : Configuration) (n : Nat) : Table.find (loadDirectory c).stations n =
    (Table.find c.stations n).map fun v => { settings := v, pointMap := rebuildMap c.assets n } :=
  Table.find_map_entries c.stations (fun m v => ({ settings := v, pointMap := rebuildMap c.assets m } : Station)) n

theorem find_loadDirectory_assets (c : Configuration) (a : Nat) : Table.find (loadDirectory c).assets a =
    (Table.find c.assets a).map fun e => { settings := e.1, reference := e.2 } :=
  Table.find_map_entries c.assets (fun _ e => ({ settings := e.1, reference := e.2 } : Asset)) a

/-! ## Start-up (R184) -/

theorem powerOnState_eq {s : State} {c : Configuration} (h : startConfiguration s.store = c) : powerOnState s =
    { State.reset with
      gate := { source := c.gateSource, settleTime := c.settleTime }
      directory := loadDirectory c
      lines := loadLines c
      dispatch := { notices := c.notices, alertSettings := c.alert, pinHigh := !c.alert.activeHigh }
      link := { rate := c.rate, lineRate := c.rate }
      store := { image := s.store.image }
      pending := s.pending } := by subst h; rfl

theorem exec_startUp {c : Instr} (s : State) (h : c = .powerOn ∨ c = .resetPin) : exec c s = .next (startUp s) := by
  rcases h with rfl | rfl <;> rfl

/-- R184: without a valid image start-up leaves the factory values, with which no line starts. -/
theorem startUp_factory {s : State} (h : ∀ i, s.store.image = some i → i.valid = false) :
    startUp s = { State.reset with store := { image := s.store.image }, pending := s.pending } := by
  have hc := startConfiguration_invalid h
  have hoff : ∀ l, (lineOf (powerOnState s) l).settings.autoStart = false := fun l => by
    rw [lineOf_powerOnState, hc]; cases l <;> rfl
  rw [startUp, autoStart_none hoff, powerOnState_eq hc]
  rfl

/-- R184: the lines after start-up, by the configuration that it loads. -/
theorem lineOf_startUp {s : State} {c : Configuration} (h : startConfiguration s.store = c) (l : FieldLine) :
    (lineOf (startUp s) l).settings = c.line l ∧ ((c.line l).autoStart = false → lineOf (startUp s) l = { settings := c.line l }) ∧
      ((c.line l).autoStart = true → (c.line l).mode = .continuous → (lineOf (startUp s) l).state ≠ .stopped) :=
  autoStart_resetLine (by rw [lineOf_powerOnState, h])

/-- R184: start-up leaves the power-on values with the configuration, but for what the starting of lines makes of lines and intake. -/
theorem startUp_frame (s : State) : startUp s = { powerOnState s with lines := (startUp s).lines, intake := (startUp s).intake } :=
  autoStart_frame (powerOnState s)

theorem startUp_directory {s : State} {c : Configuration} (h : startConfiguration s.store = c) :
    (startUp s).directory = loadDirectory c := by
  rw [startUp_frame, powerOnState_eq h]

theorem startUp_intake {s : State} {c : Configuration} (h : startConfiguration s.store = c) (hoff : ∀ l, (c.line l).autoStart = false) :
    (startUp s).intake = {} := by
  rw [startUp, autoStart_none fun l => by rw [lineOf_powerOnState, h]; exact hoff l]
  rfl

theorem stationOf_startUp {s : State} {c : Configuration} (h : startConfiguration s.store = c) (n : Nat) :
    stationOf (startUp s) n = (Table.find c.stations n).map fun v => { settings := v, pointMap := rebuildMap c.assets n } := by
  rw [stationOf, startUp_directory h, find_loadDirectory_stations]

theorem assetOf_startUp {s : State} {c : Configuration} (h : startConfiguration s.store = c) (a : Nat) :
    assetOf (startUp s) a = (Table.find c.assets a).map fun e => { settings := e.1, reference := e.2 } := by
  rw [assetOf, startUp_directory h, find_loadDirectory_assets]

/-! ## RESTART and FACTORY-DEFAULTS (R185, R186) -/

theorem restartNow_due {s : State} (h : s.link.after = .restart) : restartNow s = autoStart (restartState s) := if_pos h

theorem restartNow_noLine {s : State} (h : s.link.after = .restart) (hoff : ∀ l, (lineOf s l).settings.autoStart = false) :
    restartNow s = restartState s := by
  rw [restartNow_due h, autoStart_none fun l => by rw [lineOf_restartState]; exact hoff l]

theorem stationOf_restartState (s : State) (n : Nat) : stationOf (restartState s) n = (stationOf s n).map resetStation :=
  Table.find_map_entries s.directory.stations (fun _ => resetStation) n

theorem assetOf_restartState (s : State) (a : Nat) : assetOf (restartState s) a = (assetOf s a).map resetAsset :=
  Table.find_map_entries s.directory.assets (fun _ => resetAsset) a

theorem factoryNow_due {s : State} (h : s.link.after = .factoryDefaults) : factoryNow s = factoryState s := by
  rw [factoryNow, if_pos h, autoStart_none fun l => by rw [lineOf_factoryState]; rfl]

/-! ## The way of a save (R182, R183) -/

/-- R183: the tick that brings the save count to 0 abandons the write. -/
theorem takeSave_abandons {s : State} {v : Saving} (hd : s.tick.save = true) (hv : s.store.saving = some v) (hc : v.count ≤ 1) :
    takeSave s = abandonSave (modTick (fun t => { t with save := false }) s) := by
  rw [takeSave, if_pos hd, saveTick, modTick_store, hv]
  exact if_pos hc

theorem completeSave_saving {s : State} {v : Saving} (hv : s.store.saving = some v) : completeSave s =
    { s with store := { saving := none,
                        image := some { contents := v.captured, crc := crc16 (Config.imageBytes v.captured), mark := true } } } := by
  rw [completeSave, hv]

theorem completeSave_idle {s : State} (hv : s.store.saving = none) : completeSave s = s := by
  rw [completeSave, hv]

/-- R181: contents stored with their CRC and the mark are a valid image. -/
theorem Image.valid_stored (c : Configuration) : Image.valid { contents := c, crc := crc16 (Config.imageBytes c), mark := true } = true := by
  simp [Image.valid]

/-! ## The invariants at reset (R184) -/

theorem sized_reset : Sized State.reset where
  timebase := ⟨Nat.zero_le _, Nat.zero_le _, Nat.zero_le _, by decide⟩
  gate := ⟨Nat.zero_le _, by decide⟩
  failures _ he := nomatch he
  lines l := by cases l <;> exact resetLine_sized (v := {}) (by decide)
  intake := ⟨rfl, Nat.zero_le _, List.nodup_nil⟩
  records := Nat.zero_le _
  windows _ he := nomatch he
  items := Nat.zero_le _
  frames := Nat.zero_le _
  save _ hv := nomatch hv
  captured _ hv := nomatch hv
  image _ hi := nomatch hi

theorem alertAgrees_reset : AlertAgrees State.reset.dispatch := ⟨rfl, fun h => (nomatch h), fun _ => rfl, by decide, fun _ => rfl⟩

theorem queueOrdered_reset : QueueOrdered State.reset where
  records := rfl
  slots := rfl
  ranked := .nil
  things := .nil
  apart _ hi := nomatch hi
  bound := Nat.zero_le _
  waits _ := rfl

theorem canonical_reset : Canonical State.reset :=
  (canonical_iff _).mpr ⟨⟨rfl, fun _ he => (nomatch he), rfl, rfl, rfl⟩, rfl, emptyIncidents_canonical,
    ⟨fun _ hi => (nomatch hi), fun _ hv => (nomatch hv)⟩⟩

end Sys2Proof.Machine

namespace Sys2Proof.Proofs

open Sys2Proof.Machine

/-- Settles O3: start-up loads the configuration, each line starts by itself or not, and the point maps are the assets' role points. -/
theorem powerOnLoadsImageOrFactoryValues : Obligations.PowerOnLoadsImageOrFactoryValues := by
  refine ⟨fun c s hc h => ?_, fun c s i hc hi hv => ?_⟩
  · rw [exec_startUp s hc, startUp_factory h]
  · have hstart := startConfiguration_valid hi hv
    refine ⟨startUp s, exec_startUp s hc, ?_, lineOf_startUp hstart, startUp_intake hstart, ?_, ?_, fun n => ?_, fun n st hst => ?_,
      assetOf_startUp hstart⟩
    · rw [startUp_directory hstart, ← hi]
      exact (startUp_frame s).trans (by rw [powerOnState_eq hstart])
    · rw [startUp_directory hstart]; rfl
    · rw [startUp_directory hstart]; rfl
    · rw [stationOf_startUp hstart, Option.map_map]
      exact congrFun Option.map_id _
    · obtain ⟨v, -, rfl⟩ := Option.map_eq_some_iff.mp ((stationOf_startUp hstart n).symm.trans hst)
      exact ⟨rfl, fun p a role => rebuildMap_sound, fun p a role e => rebuildMap_complete⟩

/-- Settles O4: the reply comes first, and the lines start on the state that RESTART leaves. -/
theorem restartKeepsSettings : Obligations.RestartKeepsSettings := by
  refine ⟨fun s f h => exec_presents (own := ownRestart) h, fun s hs h => ⟨_, exec_settled (act := restartNow) hs, fun l => ?_⟩,
    fun s hs h hoff => ⟨_, exec_settled (act := restartNow) hs, ?_⟩⟩
  · obtain ⟨-, hoff, hon⟩ := autoStart_resetLine (lineOf_restartState s l)
    rw [restartNow_due h]
    exact ⟨hon, hoff⟩
  · rw [restartNow_noLine h hoff]
    exact ⟨rfl, rfl, rfl, stationOf_restartState s, assetOf_restartState s, lineOf_restartState s⟩

/-- Settles O16: the save is captured, abandoned at its timeout, or stored as a valid image. -/
theorem saveCapturesAndEnds : Obligations.SaveCapturesAndEnds := by
  refine ⟨fun s v hd hv hc => ?_, fun s f h => exec_taken (own := ownSaveSettings) h rfl, fun s v hs hv => ?_, fun s hs hv => ?_⟩
  · refine ⟨clearIfDone (takeSave s), rfl, ?_⟩
    rw [clearIfDone_eq, takeSave_abandons hd hv hc.le]
    rfl
  · exact ⟨_, (exec_settled (act := completeSave) hs).trans (congrArg _ (completeSave_saving hv)), rfl, Image.valid_stored _⟩
  · rw [exec_settled (act := completeSave) hs, completeSave_idle hv]

/-- Settles O5: the reply comes first, and the factory settings start no line. -/
theorem factoryDefaultsReset : Obligations.FactoryDefaultsReset := by
  refine ⟨fun s f h => exec_presents (own := ownFactoryDefaults) h, fun s hs h => ?_⟩
  rw [exec_settled (act := factoryNow) hs, factoryNow_due h]
  rfl

/-- Settles O60: the tables and lists of the reset state are empty, and its counts 0. -/
theorem resetMeetsInvariants : Obligations.ResetMeetsInvariants :=
  ⟨sized_reset, fun _ he => (nomatch he), alertAgrees_reset, queueOrdered_reset, canonical_reset⟩

end Sys2Proof.Proofs
end

section
/-! PROOF. The step (log entries 1 and 7): the front command with the queue's rest, and on an empty queue how much time passes and what follows
it. -/

namespace Sys2Proof.Machine

/-- What follows the passing of time, field by field: the phase, the monitor with its count and its elapsed time, and CLOCK-FAIL. -/
theorem ClockFrame.eq {s t : State} (h : ClockFrame s t) : t = { s with
    timebase := { s.timebase with
      phase := t.timebase.phase, monitor := t.timebase.monitor, goodCycles := t.timebase.goodCycles, elapsed := t.timebase.elapsed }
    link := { s.link with flags := { s.link.flags with clockFail := t.link.flags.clockFail } } } := by
  obtain ⟨frame, runSecond, wallOffset, timeSet⟩ := h
  dsimp only
  rw [← runSecond, ← wallOffset, ← timeSet]
  exact frame

/-- R20: an exit from QUALIFYING carries the phase over. -/
theorem takeExit_phase (s : State) : (takeExit s).timebase.phase = s.timebase.phase := by
  unfold takeExit
  split
  · split
    · rfl
    · split <;> rfl
  · rfl

/-- R20: all the time that passes is time of the second in progress, whatever the monitor does within it. -/
theorem passTime_phase (d : Nat) (s : State) : (passTime d s).timebase.phase = s.timebase.phase + d := by
  rw [← takeExit_phase s]
  unfold passTime
  dsimp only
  split
  · split <;> rfl
  · rfl

theorem idleTime_le_rest (t : Timebase) : idleTime t ≤ min Config.nominalPeriod (fullSecond - t.phase) := by
  unfold idleTime
  dsimp only
  split
  · exact Nat.min_le_left _ _
  · exact Nat.le_refl _

/-- Log entries 1 and 7: at most one nominal crystal period passes, and no more than is left of the second. -/
theorem passIdle_phase (s : State) : ∃ d, d ≤ Config.nominalPeriod ∧ d ≤ fullSecond - s.timebase.phase ∧
    (passIdle s).timebase.phase = s.timebase.phase + d := by
  obtain ⟨hperiod, hrest⟩ := Nat.le_min.mp (idleTime_le_rest (takeExit s).timebase)
  rw [takeExit_phase] at hrest
  exact ⟨_, hperiod, hrest, passTime_phase _ s⟩

theorem step_command {s : State} {c : Instr} {cs : List Instr} (h : s.pending = c :: cs) : step s = exec c (s.withPending cs) := by
  rw [step, h]

theorem step_idle {s : State} (h : s.pending = []) : step s = .next (passIdle (settle s)) := by
  rw [step, h]

end Sys2Proof.Machine

namespace Sys2Proof.Proofs

open Sys2Proof.Machine

/-- Settles O1: the step is exec or the passing of time, which has a clock's frame and stays within the second in progress. -/
theorem stepRunsFrontCommand : Obligations.StepRunsFrontCommand := by
  refine ⟨fun c cs s h => step_command h, fun s h => ?_⟩
  obtain ⟨d, hperiod, hrest, hphase⟩ := passIdle_phase (settle s)
  refine ⟨passIdle (settle s), step_idle h, rfl, (passIdle_frame _).eq, ?_, ?_, fun hs => ?_⟩ <;> rw [hphase]
  · exact Nat.le_add_right _ _
  · exact Nat.add_le_add_left hperiod _
  · calc (settle s).timebase.phase + d
      _ ≤ (settle s).timebase.phase + (fullSecond - (settle s).timebase.phase) := Nat.add_le_add_left hrest _
      _ = fullSecond := Nat.add_sub_of_le hs

end Sys2Proof.Proofs
end
